-- ==== Sys2Proof/Word.lean ====
section
/-! DEFINITION. The word types of the link: bytes, tags, references and call ids (11, section 11.9). -/

namespace Sys2Proof

/-- A byte on the control link. -/
abbrev Byte := BitVec 8

/-- The 16-bit tag that ties a reply to its request; 0 on call reports and notices (R193). -/
abbrev Tag := BitVec 16

/-- The 32-bit call id that the call controller chooses (R1). -/
abbrev CallId := BitVec 32

/-- A 16-bit field that names a context: the context index times 8 plus its generation (R2). -/
abbrev CallRef := BitVec 16

end Sys2Proof
end

