-- ==== Sys2Proof/Syntax.lean ====
section
/-! DEFINITION. The commands of the part: one constructor for each row of spec/opcode_table.json, with the
fields that the owning chapter gives the request or event. -/

namespace Sys2Proof

/-- A field that names one of a set of values. `none` stands for any value that names none of them (00,
section 3.3): such a field is refused BAD FIELD (log 17). -/
abbrev Named (α : Type) := Option α

/-- A field that is ANY or a value (R23, R33). -/
inductive AnyOr (α : Type) where
  | any
  | is (a : α)
  deriving DecidableEq, Repr

/-- A field that is KEEP or a value (R144, R198). -/
inductive Keep (α : Type) where
  | keep
  | to (a : α)
  deriving DecidableEq, Repr

/-- A measurement parameter given as DEFAULT or as a value (R107). -/
inductive OrDefault (α : Type) where
  | default
  | value (a : α)
  deriving DecidableEq, Repr

/-- Number classes of a call (R1). -/
inductive NumberClass where
  | national | international | network
  deriving DecidableEq, Repr

/-- The two banks of number entries (R22). -/
inductive BankId where
  | a | b
  deriving DecidableEq, Repr

/-- The outcome written in a number entry (R23). -/
inductive EntryOutcome where
  | route (list : Nat)
  | bar
  deriving DecidableEq, Repr

/-- The seven written fields of a number entry, as PREFIX WRITE carries them (R23, R29). -/
structure EntryFields where
  origin : AnyOr Nat
  numClass : Named (AnyOr NumberClass)
  digits : List Nat
  outcome : Named EntryOutcome
  threshold : Nat
  interval : Nat
  lifetime : Nat
  deriving DecidableEq, Repr

/-- Modes of PREFIX READ (R31). -/
inductive ReadMode where
  | exact | next
  deriving DecidableEq, Repr

/-- Directions of a group (R40). -/
inductive Direction where
  | outgoing | incoming | bothway
  deriving DecidableEq, Repr

/-- Controlled parity of a group (R40). -/
inductive Parity where
  | even | odd | none
  deriving DecidableEq, Repr

/-- Hunting orders (R40, section 3.6 of 03). -/
inductive HuntOrder where
  | ascending | descending | rotate | longestIdle
  deriving DecidableEq, Repr

/-- Service states of a group (R40). -/
inductive ServiceState where
  | inService | draining | outOfService
  deriving DecidableEq, Repr

/-- Thresholds for levels 1, 2 and 3 (R107). -/
structure Triple where
  l1 : Nat
  l2 : Nat
  l3 : Nat
  deriving DecidableEq, Repr

/-- Reservation figures for adopted levels 0 to 3 (R40). -/
structure Quad where
  l0 : Nat
  l1 : Nat
  l2 : Nat
  l3 : Nat
  deriving DecidableEq, Repr

/-- The fields of GROUP DEFINE (R40, R41, R107). The report enable is on or off, or neither (log 37). -/
structure GroupFields where
  carrier : Nat
  direction : Named Direction
  count : Nat
  parity : Named Parity
  hunting : Named HuntOrder
  guard : Nat
  window : OrDefault Nat
  occupancy : OrDefault Triple
  overflow : OrDefault Triple
  rise : OrDefault Nat
  fall : OrDefault Nat
  reservations : Quad
  report : Named Bool
  deriving DecidableEq, Repr

/-- Policies of a route list (R63). -/
inductive Policy where
  | sequential | cheapest
  deriving DecidableEq, Repr

/-- Causes the call controller may give a CRANKBACK (R97). -/
inductive CrankCause where
  | congestion | circuitFault | unroutable
  deriving DecidableEq, Repr

/-- A lifetime as GAP ADD carries it (R129). -/
inductive Lifetime where
  | permanent
  | seconds (n : Nat)
  deriving DecidableEq, Repr

/-- What GAP READ asks for (R131). -/
inductive GapKey where
  | byDigits (digits : List Nat)
  | fromSlot (slot : Nat)
  deriving DecidableEq, Repr

/-- A civil date (R141). -/
structure Date where
  year : Nat
  month : Nat
  day : Nat
  deriving DecidableEq, Repr

/-- Weekdays, in the order of the remainders of R141. -/
inductive Weekday where
  | saturday | sunday | monday | tuesday | wednesday | thursday | friday
  deriving DecidableEq, Repr

/-- Day classes (R143). -/
inductive DayClass where
  | weekday | weekend | holiday
  deriving DecidableEq, Repr

/-- An entry of a band list: a start minute and a band (R145). -/
structure BandEntry where
  start : Nat
  band : Nat
  deriving DecidableEq, Repr

/-- The four rates of one day class (R148). -/
structure BandRates where
  b0 : Nat
  b1 : Nat
  b2 : Nat
  b3 : Nat
  deriving DecidableEq, Repr

/-- The twelve rates of one side of an agreement (R148). -/
structure Rates where
  weekday : BandRates
  weekend : BandRates
  holiday : BandRates
  deriving DecidableEq, Repr

/-- One side of a carrier agreement: setup fee, first period, step and rates (R148). -/
structure Tariff where
  fee : Nat
  first : Nat
  step : Nat
  rates : Rates
  deriving DecidableEq, Repr

/-- The fields of CARRIER WRITE (R148, R150). -/
structure CarrierFields where
  own : Named Bool
  revision : BitVec 16
  inbound : Tariff
  mirror : Named Bool
  outbound : Tariff
  premium : Nat
  deriving DecidableEq, Repr

/-- The eight notice classes (R194). -/
inductive NoticeClass where
  | congestion | measurement | gap | fault | engine | counter | circuit | condition
  deriving DecidableEq, Repr

/-- The seven fields of DEVICE SETTINGS (R198). -/
structure SettingsFields where
  ordinaryReserve : Keep Nat
  bulkReserve : Keep Nat
  destinationWindow : Keep Nat
  crankbackLimit : Keep Nat
  attemptTimeout : Keep Nat
  holdWait : Keep Nat
  watermark : Keep Nat
  deriving DecidableEq, Repr

/-- A request frame as it stands in the input buffer: kind, tag and body (11, section 11.9). -/
structure Frame where
  kind : Byte
  tag : Tag
  body : List Byte
  deriving DecidableEq, Repr

/-- The commands. A request carries the tag of its frame and its fields. -/
inductive Instr where
  -- requests about calls (01)
  | setup (tag : Tag) (callId : CallId) (group circuit : BitVec 16) (numClass prio : Byte) (digits : List Byte)
  | proceed (tag : Tag) (ref : CallRef) (group circuit : Nat)
  | answer (tag : Tag) (ref : CallRef)
  | crankback (tag : Tag) (ref : CallRef) (group circuit : Nat) (cause : Named CrankCause)
  | release (tag : Tag) (ref : CallRef)
  | readContext (tag : Tag) (ref : CallRef)
  -- number analysis (02)
  | prefixWrite (tag : Tag) (bank : Named BankId) (index : Nat) (fields : EntryFields)
  | prefixRead (tag : Tag) (bank : Named BankId) (index : Nat) (mode : Named ReadMode)
  | prefixDelete (tag : Tag) (bank : Named BankId) (index : Nat)
  | bankCopy (tag : Tag)
  | bankSwap (tag : Tag) (expected : AnyOr Nat)
  -- circuit groups (03)
  | groupDefine (tag : Tag) (group : Nat) (fields : GroupFields)
  | groupService (tag : Tag) (group : Nat) (service : Named ServiceState)
  | groupRead (tag : Tag) (group : Nat) (range : Option (Nat × Nat))
  | circuitBlock (tag : Tag) (group circuit : Nat)
  | circuitUnblock (tag : Tag) (group circuit : Nat)
  | readGroupCounters (tag : Tag) (group : Nat)
  -- route lists (04)
  | routeListWrite (tag : Tag) (list : Nat) (policy : Named Policy) (ceiling : BitVec 16) (choices : List Nat)
  | routeListRead (tag : Tag) (list : Nat)
  -- gaps (07)
  | gapAdd (tag : Tag) (digits : List Nat) (interval : Nat) (lifetime : Lifetime)
  | gapRemove (tag : Tag) (digits : List Nat)
  | gapRead (tag : Tag) (key : GapKey)
  -- time base and agreements (08)
  | setTime (tag : Tag) (date : Date) (time : Nat)
  | holidayWrite (tag : Tag) (mask : Keep (List (Named Weekday))) (holidays : Keep (List Date))
  | bandScheduleWrite (tag : Tag) (dayClass : Named DayClass) (entries : List BandEntry)
  | carrierWrite (tag : Tag) (carrier : Nat) (fields : CarrierFields)
  | carrierRead (tag : Tag) (carrier : Nat)
  -- settlement (09)
  | readRecords (tag : Tag) (count : Nat)
  | discardRecords (tag : Tag) (first : BitVec 32) (count : Nat)
  -- engine (10)
  | hold (tag : Tag)
  | forceHold (tag : Tag)
  | resume (tag : Tag)
  | step (tag : Tag)
  | trial (tag : Tag) (origin : Nat) (numClass : Named NumberClass) (digits : List Nat) (prio duration : Nat)
  | faultAck (tag : Tag)
  | heldMeasurement (tag : Tag) (setting : Named Bool)
  -- link (11)
  | status (tag : Tag) (clear : Named Bool)
  | noticeEnable (tag : Tag) (classes : List (Named NoticeClass))
  | noticeDisable (tag : Tag) (classes : List (Named NoticeClass))
  | deviceSettings (tag : Tag) (fields : SettingsFields)
  | warmRestart (tag : Tag)
  | coldRestart (tag : Tag)
  | reject (frame : Frame)
  -- lines and the receiver (11)
  | resetAsserted
  | resetReleased
  | frameReceived (bytes : List Byte)
  | interByteTimeout
  | messageSent
  | syncPairFound
  | badLength (length : BitVec 16)
  -- the clock and the timers
  | monotonicAdvance
  | guardExpiry (group circuit : Nat)
  | attemptTimerExpiry (context : Nat)
  | holdWaitExpiry (context : Nat)
  | measurementWindowExpiry (group : Nat)
  | destinationWindowExpiry
  | gapDeadline (slot : Nat)
  | gapLifetimeExpiry (slot : Nat)
  deriving DecidableEq, Repr

end Sys2Proof
end

