-- ==== Sys2Proof/Config.lean ====
section
/-! DEFINITION. What the part fixes: the sizes of its tables and queues, the bounds of its counters, the
ranges and defaults of its settings, and the two values the spec leaves open. -/

namespace Sys2Proof.Config

/-- Call contexts (R2). -/
def contextCount : Nat := 8192
/-- Generations of a context: 0 to 7 (R2). -/
def generationCount : Nat := 8
/-- Entries of a number bank (R22). -/
def bankEntries : Nat := 8192
/-- Group ids (R40). -/
def groupCount : Nat := 1024
/-- Most circuits of one group (R40). -/
def groupCircuits : Nat := 512
/-- Most circuits of the part (R40, R41). -/
def totalCircuits : Nat := 16384
/-- Route list ids (R63). -/
def routeListCount : Nat := 2048
/-- Most choices of a route list (R63). -/
def choiceCount : Nat := 8
/-- The loss ceiling that means unlimited (R63). -/
def unlimitedCeiling : Nat := 65535
/-- Slots of the gap table (R125). -/
def gapSlots : Nat := 64
/-- Entries one GAP READ gives (R131). -/
def gapReadEntries : Nat := 8
/-- Carrier agreements (R148). -/
def carrierCount : Nat := 128
/-- Places of the settlement queue (R166). -/
def settlementPlaces : Nat := 2048
/-- Entries of the held queue (R180). -/
def heldPlaces : Nat := 64
/-- Frames of the input buffer (R191). -/
def inPlaces : Nat := 64
/-- Places of the output queue (R193). -/
def outPlaces : Nat := 512
/-- Places a notice must leave behind (R194). -/
def noticeRoom : Nat := 64
/-- Most body bytes of a frame (R190). -/
def maxBody : Nat := 1024
/-- Deciseconds between two bytes that discard a partial frame (R190). -/
def interByteLimit : Nat := 10

/-- Bound of the 32-bit saturating counters: the link counters (R197), the window accumulators (R106) and
calls gapped (R125). -/
def counterBound : Nat := 4294967295
/-- Bound of a window's busy integral (R106). -/
def integralBound : Nat := 1536000
/-- Bound of a window's summed hold time (R106). -/
def holdTimeBound : Nat := 281474976710655
/-- Bound of the monotonic count (R139). -/
def monotonicBound : Nat := 281474976710655
/-- Bound of a destination crankback count (R23, R35) and of the fault count (R174). -/
def countBound : Nat := 65535
/-- Bound of a glare re-hunt count (R92). -/
def glareBound : Nat := 255
/-- Entries of a raw-level history (R115). -/
def historyLength : Nat := 8
/-- Bids from which a window is judged by its overflow ratio (R113). -/
def ratioBids : Nat := 8

/-- Deciseconds of a day (R140). -/
def dayDs : Nat := 864000
/-- The clamp on a conversation's duration, in deciseconds (R155), and on a trial's duration in seconds (R164). -/
def longestCallDs : Nat := 864000
/-- Most entries of a band split (R156). -/
def splitEntries : Nat := 8

/-- Defaults of DEVICE SETTINGS (R198). -/
def ordinaryReserveDefault : Nat := 256
def bulkReserveDefault : Nat := 1024
def destinationWindowDefault : Nat := 10
def crankbackLimitDefault : Nat := 3
def attemptTimeoutDefault : Nat := 100
def holdWaitDefault : Nat := 20
def watermarkDefault : Nat := 1536

/-- FREE VALUE (DESIGN CHOICE, log 4). What the 48-bit monotonic count shows after the advance past its upper
bound. R139 says only that no part runs so long; it states no result. -/
opaque countPastBound : BitVec 48

/-- FREE VALUE (DESIGN CHOICE, log 6). The body bytes of the frame that spells a request's fields. The spec lays out the
body of SETUP alone (11, section 11.9) and gives the others by their named fields. -/
opaque requestBody : Instr → List Byte

end Sys2Proof.Config
end

