-- ==== Sys2Proof/Machine/State.lean ====
section
/-! DEFINITION. The state of the part as plain data, block by block (00, section 2.1), the messages it sends, the
reasons a step could stop, and the state after reset. -/

namespace Sys2Proof.Machine

open Sys2Proof

/-- A sparse table: (number, record) pairs. In canonical form the numbers rise strictly, and no entry equals what
an unlisted number stands for. -/
abbrev Table (α : Type) := List (Nat × α)

/-! ### Time base (08) -/

/-- A set wall clock: a date and a time of day in deciseconds from midnight (R140). -/
structure WallTime where
  date : Date
  tod : Nat
  deriving DecidableEq, Repr

/-- The wall clock or a wall instant: `none` is UNSET (R140). -/
abbrev Wall := Option WallTime

/-- The time base (R139, R140, R143, R145). -/
structure TimeBase where
  count : Nat
  wall : Wall
  weekendMask : List Weekday
  holidays : List Date
  weekdayBands : List BandEntry
  weekendBands : List BandEntry
  holidayBands : List BandEntry
  deriving DecidableEq, Repr

/-! ### Rating unit (08, 09) -/

/-- A carrier agreement (R148). -/
structure Carrier where
  own : Bool
  revision : BitVec 16
  inbound : Tariff
  mirror : Bool
  outbound : Tariff
  premium : Nat
  deriving DecidableEq, Repr

/-- An entry of a band split: a day class, a band and a number of seconds (R156). -/
structure SplitEntry where
  dayClass : DayClass
  band : Nat
  seconds : Nat
  deriving DecidableEq, Repr

/-- One priced side of a settlement record (R165). -/
structure Side where
  own : Bool
  billed : Nat
  charge : Nat
  revision : BitVec 16
  deriving DecidableEq, Repr

/-- The flags of a settlement record (R162). -/
structure RecordFlags where
  long : Bool
  timeUnset : Bool
  timeStep : Bool
  restart : Bool
  premium : Bool
  deriving DecidableEq, Repr

/-- A settlement record less its sequence number, which it takes at its entry to the queue (R165, R166). -/
structure RecordBody where
  callId : CallId
  inGroup : Nat
  inCarrier : Nat
  outGroup : Nat
  outCarrier : Nat
  position : Nat
  attempts : Nat
  answerWall : Wall
  duration : Nat
  seconds : Nat
  split : List SplitEntry
  extraClass : DayClass
  extraBand : Nat
  receivable : Side
  payable : Side
  flags : RecordFlags
  deriving DecidableEq, Repr

/-- A settlement record in the queue (R165, R166). -/
structure Record where
  seq : BitVec 32
  body : RecordBody
  deriving DecidableEq, Repr

/-- The rating unit (R148, R166, R171). `carriers` lists the agreements that differ from the zeroed values. -/
structure RatingUnit where
  carriers : Table Carrier
  queue : List Record
  seq : BitVec 32
  watermark : Nat
  deriving DecidableEq, Repr

/-! ### Context store (01) -/

/-- The outcomes of an attempt (R4). -/
inductive AttemptOutcome where
  | inProgress
  | proceeded
  | crankedBack (cause : CrankCause)
  | crankedBackGlare
  | timedOut
  deriving DecidableEq, Repr

/-- An attempt record (R4). -/
structure Attempt where
  group : Nat
  position : Nat
  circuit : Nat
  glares : Nat
  outcome : AttemptOutcome
  deriving DecidableEq, Repr

/-- The states of a context (R1). -/
inductive CallState where
  | queued | routed | alerting | answered | closing
  deriving DecidableEq, Repr

/-- A context in use (R1). Its call reference is its index times 8 plus its generation (R2), its pending call report
stands in the pending-report list (R17). -/
structure Context where
  callId : CallId
  prio : Nat
  inGroup : Nat
  inCircuit : Nat
  inCarrier : Nat
  numClass : NumberClass
  digits : List Nat
  matched : Option (BankId × Nat)
  routeList : Option Nat
  attempts : List Attempt
  state : CallState
  attemptDeadline : Option Nat
  holdDeadline : Option Nat
  answerCount : Option Nat
  /-- absent, UNSET or a wall instant -/
  answerWall : Option Wall
  timeStep : Bool
  restart : Bool
  pendingRecord : Option RecordBody
  deriving DecidableEq, Repr

/-! ### Number analysis (02) -/

/-- A number entry (R23). -/
structure NumberEntry where
  origin : AnyOr Nat
  numClass : AnyOr NumberClass
  digits : List Nat
  outcome : EntryOutcome
  threshold : Nat
  interval : Nat
  lifetime : Nat
  count : Nat
  deriving DecidableEq, Repr

/-- The number analysis unit (R22, R37). A bank lists the entries that differ from the cleared form. -/
structure Analysis where
  bankA : Table NumberEntry
  bankB : Table NumberEntry
  active : BankId
  destLength : Nat
  destRemaining : Nat
  deriving DecidableEq, Repr

/-! ### Circuit table and congestion monitor (03, 06) -/

/-- A circuit record by its state (R45). The block-pending mark exists only while the circuit is OUT or IN. -/
inductive Circuit where
  | idle (since : Nat)
  | out (holder : Nat) (seized : Nat) (blockPending : Bool)
  | inc (holder : Nat) (seized : Nat) (blockPending : Bool)
  | guard (deadline : Nat)
  | blocked
  deriving DecidableEq, Repr

/-- A cumulative counter and its wrap mark (R58, R59). -/
structure Counter where
  value : BitVec 32
  wrapped : Bool
  deriving DecidableEq, Repr

/-- The seven cumulative counters of a group (R58). -/
structure Counters where
  bids : Counter
  seizures : Counter
  overflows : Counter
  crankbacks : Counter
  glaresWon : Counter
  glaresLost : Counter
  incoming : Counter
  deriving DecidableEq, Repr

/-- The names of the seven counters (R58). -/
inductive CounterName where
  | bids | seizures | overflows | crankbacks | glaresWon | glaresLost | incoming
  deriving DecidableEq, Repr

/-- The fields of a group record that GROUP DEFINE writes, less the circuit count, which is the number of its
circuit records, and the service state (R40, R107). -/
structure GroupRecord where
  carrier : Nat
  direction : Direction
  parity : Parity
  hunting : HuntOrder
  guard : Nat
  service : ServiceState
  window : Nat
  occupancy : Triple
  overflow : Triple
  rise : Nat
  fall : Nat
  reservations : Quad
  report : Bool
  deriving DecidableEq, Repr

/-- A group's measurement state (R106). The busy count and the window state are computed. -/
structure Measurement where
  elapsed : Nat
  bids : Nat
  overflows : Nat
  crankbacks : Nat
  integral : Nat
  released : Nat
  holdTime : Nat
  /-- raw levels, newest first -/
  history : List Nat
  adopted : Nat
  deriving DecidableEq, Repr

/-- A defined group (R40, R45, R46, R54, R58, R106). -/
structure CircuitGroup where
  record : GroupRecord
  circuits : List Circuit
  idleList : List Nat
  rotate : Nat
  counters : Counters
  meas : Measurement
  deriving DecidableEq, Repr

/-! ### Route selector (04) -/

/-- A defined route list (R63). -/
structure RouteList where
  policy : Policy
  ceiling : BitVec 16
  choices : List Nat
  deriving DecidableEq, Repr

/-- The route selector (R63, R66). -/
structure Selector where
  routeLists : Table RouteList
  crankbackLimit : Nat
  attemptTimeout : Nat
  deriving DecidableEq, Repr

/-! ### Gap controller (07) -/

/-- Origins of a gap entry (R125). -/
inductive GapOrigin where
  | hostSet | automatic
  deriving DecidableEq, Repr

/-- A gap entry (R125). It is CLOSED exactly while it has a gap deadline. `lifetime` is `none` for PERMANENT. -/
structure GapEntry where
  digits : List Nat
  interval : Nat
  origin : GapOrigin
  lifetime : Option Nat
  lastPass : Option Nat
  gapDeadline : Option Nat
  createdCount : Nat
  createdWall : Wall
  gapped : Nat
  deriving DecidableEq, Repr

/-- The gap controller (R125). -/
structure GapTable where
  slots : Table GapEntry
  autoList : List Nat
  deriving DecidableEq, Repr

/-! ### Engine supervisor (10) -/

/-- Engine states (R174). -/
inductive EngineState where
  | running | holding | held | stepping
  deriving DecidableEq, Repr

/-- Hold reasons (R174). -/
inductive HoldReason where
  | none | start | host | forced | tableFault
  deriving DecidableEq, Repr

/-- An entry of the held queue (R180). -/
structure HeldEntry where
  ref : Nat
  prio : Nat
  arrival : Nat
  deadline : Nat
  deriving DecidableEq, Repr

/-- Kinds of table fault (R185). -/
inductive FaultKind where
  | undefinedRouteList | undefinedGroup | incomingGroupInList | emptyGroup
  deriving DecidableEq, Repr

/-- The table and entry a fault concerns (R28, R80, R185). -/
inductive FaultPlace where
  | bank (bank : BankId) (index : Nat) (list : Nat)
  | routeList (list : Nat)
  | choice (list : Nat) (position : Nat) (group : Nat)
  deriving DecidableEq, Repr

/-- A table fault as it is handed to the engine supervisor (R28, R80). -/
structure TableFault where
  kind : FaultKind
  place : FaultPlace
  ref : Nat
  deriving DecidableEq, Repr

/-- A latched fault (R185). -/
structure LatchedFault where
  fault : TableFault
  latchedAt : Nat
  deriving DecidableEq, Repr

/-- The engine supervisor (R174). The held queue stands in arrival order. -/
structure Engine where
  state : EngineState
  reason : HoldReason
  stepped : Option Nat
  held : List HeldEntry
  fault : Option LatchedFault
  faultCount : Nat
  heldMeasurement : Bool
  holdWait : Nat
  deriving DecidableEq, Repr

/-! ### Messages (11) -/

/-- The eight standing conditions (11, section 11.6). -/
inductive Condition where
  | faultLatched | contextsInReserve | settlementBacklog | recordsPending | timeUnset | engineNotRunning
  | groupAtLevel3 | counterWrapped
  deriving DecidableEq, Repr

/-- The causes a REFUSE reply or a CALL FAILED carries (R192 and the owning rules). -/
inductive Cause where
  | noContext | badCircuit | glareYield | noMatch | barred | tableFault | gapped | engineHeld | congested
  | uneconomic | routesExhausted | routeEnd
  | unknownCall | staleAttempt | wrongState | badField | notFound | inUse | tableFull | busy | mismatch | backlog
  deriving DecidableEq, Repr

/-- The figures a REFUSE reply carries beside its cause (R192). -/
inductive Figures where
  | none
  /-- STALE ATTEMPT: the reference and the current outgoing circuit, if any (R103) -/
  | current (ref : Nat) (circuit : Option (Nat × Nat))
  /-- TABLE FULL of GROUP DEFINE: the present total circuit count (R41) -/
  | totalCircuits (n : Nat)
  /-- TABLE FULL of GAP ADD: the HOST SET and AUTOMATIC entries (R129) -/
  | gapEntries (hostSet automatic : Nat)
  /-- every refusal of GAP READ: the entries in use, HOST SET and AUTOMATIC (R131) -/
  | gapTable (inUse hostSet automatic : Nat)
  /-- MISMATCH of BANK SWAP: the expected and the standby count (R33) -/
  | enabledCounts (expected standby : Nat)
  /-- MISMATCH of DISCARD RECORDS: the oldest sequence number and the queue count (R169) -/
  | oldest (seq : Option (BitVec 32)) (count : Nat)
  deriving DecidableEq, Repr

/-- Reasons of a REJECT (R192). -/
inductive RejectReason where
  | unknownKind | tagZero | badBody
  deriving DecidableEq, Repr

/-- Reasons of a ROUTE REPORT (R90). -/
inductive ReportReason where
  | timeout | glare | releasedFromHold
  deriving DecidableEq, Repr

/-- Kinds of GAP CHANGE (R134). -/
inductive GapChangeKind where
  | created | renewed | replaced (displaced : List Nat) | expired (gapped : Nat)
  deriving DecidableEq, Repr

/-- The notices that belong to a class (R194). -/
inductive Notice where
  | congestionChange (group old new : Nat)
  | measurementReport (group bids overflows crankbacks occupancy meanHold raw adopted : Nat)
  | gapChange (kind : GapChangeKind) (slot : Nat) (digits : List Nat) (origin : GapOrigin) (interval : Nat)
      (remaining : Option Nat)
  | gapTableFull (digits : List Nat) (interval lifetime : Nat)
  | tableFault (fault : LatchedFault)
  | engineState (old new : EngineState) (oldReason newReason : HoldReason) (routed held : Nat)
  | counterWrap (group : Nat) (counter : CounterName)
  | circuitAutoBlocked (group circuit ref : Nat)
  | condition (c : Condition) (begun : Bool) (present : List Condition)
  deriving DecidableEq, Repr

/-- Causes of a restart (R201). -/
inductive RestartCause where
  | resetLine | coldRestart | warmRestart
  deriving DecidableEq, Repr

/-- The figures RESTARTED carries for a warm restart (R201). -/
structure WarmFigures where
  records : Nat
  freed : Nat
  gapsRemoved : Nat
  deriving DecidableEq, Repr

/-- RESTARTED (R201). It is COLD where `warm` is absent and WARM where it is present. -/
structure Restarted where
  cause : RestartCause
  count : Nat
  wall : Wall
  engine : EngineState
  reason : HoldReason
  conditions : List Condition
  warm : Option WarmFigures
  deriving DecidableEq, Repr

/-- What READ CONTEXT shows (R18). -/
structure ContextView where
  ref : Nat
  callId : CallId
  prio : Nat
  inGroup : Nat
  inCircuit : Nat
  inCarrier : Nat
  numClass : NumberClass
  digits : List Nat
  matched : Option (BankId × Nat)
  routeList : Option Nat
  state : CallState
  attempts : List Attempt
  attemptRemaining : Option Nat
  holdRemaining : Option Nat
  answerCount : Option Nat
  answerWall : Option Wall
  timeStep : Bool
  restart : Bool
  closingPlace : Option Nat
  deriving DecidableEq, Repr

/-- A circuit as GROUP READ lists it (R44). -/
inductive CircuitView where
  | idle (number place : Nat)
  | out (number ref elapsed : Nat) (blockPending : Bool)
  | inc (number ref elapsed : Nat) (blockPending : Bool)
  | guard (number remaining : Nat)
  | blocked (number : Nat)
  deriving DecidableEq, Repr

/-- The numbers of a group's circuits in each of the five states (R44). -/
structure StateCounts where
  idle : Nat
  out : Nat
  inc : Nat
  guard : Nat
  blocked : Nat
  deriving DecidableEq, Repr

/-- What GROUP READ shows (R44, R122). -/
structure GroupView where
  group : Nat
  record : GroupRecord
  count : Nat
  states : StateCounts
  blockPending : Nat
  idleCount : Nat
  busyCount : Nat
  rotate : Nat
  idleHead : Option Nat
  meas : Measurement
  historyLength : Nat
  windowRunning : Bool
  windowRemaining : Nat
  circuits : List CircuitView
  deriving DecidableEq, Repr

/-- The standing of a group as ROUTE LIST READ shows it (R65). -/
structure GroupStanding where
  direction : Direction
  count : Nat
  service : ServiceState
  idleCount : Nat
  adopted : Nat
  reservation : Nat
  deriving DecidableEq, Repr

/-- A gap entry as GAP READ shows it (R131). `remaining` is `none` for PERMANENT, `opensIn` for OPEN. -/
structure GapView where
  slot : Nat
  digits : List Nat
  interval : Nat
  origin : GapOrigin
  remaining : Option Nat
  opensIn : Option Nat
  sincePass : Option Nat
  createdCount : Nat
  createdWall : Wall
  gapped : Nat
  autoPlace : Option Nat
  deriving DecidableEq, Repr

/-- Why an analysis did not route (R27). -/
inductive AnalysisResult where
  | noMatch
  | barred (bank : BankId) (index : Nat)
  | undefinedList (bank : BankId) (index list : Nat)
  | routed (bank : BankId) (index list : Nat)
  deriving DecidableEq, Repr

/-- Verdicts of the gap check for a TRIAL (R136). -/
inductive GapVerdict where
  | exempt
  | noGap
  | pass (slot : Nat) (digits : List Nat) (interval : Nat) (origin : GapOrigin)
  | gapped (slot : Nat) (digits : List Nat) (interval : Nat) (origin : GapOrigin) (remaining : Nat)
  deriving DecidableEq, Repr

/-- The verdict of one candidate with its figures (R70 to R73, R83). -/
inductive Verdict where
  | admissible (idle level reservation estimate : Nat) (margin : Int)
  | notInService (service : ServiceState)
  | noCapacity (idle level reservation : Nat)
  | uneconomic (estimate : Nat) (margin : Int) (ceiling : Nat)
  | fault (kind : FaultKind)
  deriving DecidableEq, Repr

/-- A candidate of a selection with its verdict. -/
structure Candidate where
  position : Nat
  group : Nat
  verdict : Verdict
  deriving DecidableEq, Repr

/-- What a selection's verdicts come to (R76 to R80). -/
inductive SelectionOutcome where
  | chosen (position group : Nat)
  | fault (position group : Nat) (kind : FaultKind)
  | none (cause : Cause)
  deriving DecidableEq, Repr

/-- One priced side as TRIAL reports it (R164). -/
structure TrialSide where
  own : Bool
  billed : Nat
  charge : Nat
  deriving DecidableEq, Repr

/-- What TRIAL reports (R184). -/
structure TrialView where
  analysis : AnalysisResult
  gap : Option GapVerdict
  verdicts : List Candidate
  outcome : Option SelectionOutcome
  circuit : Option Nat
  receivable : TrialSide
  payable : Option TrialSide
  timeUnset : Bool
  premium : Bool
  state : EngineState
  reason : HoldReason
  deriving DecidableEq, Repr

/-- The result a STEP reports (R182). -/
inductive StepResult where
  | seized (group circuit position : Nat)
  | failed (cause : Cause)
  deriving DecidableEq, Repr

/-- What STATUS shows (R197). -/
structure StatusView where
  conditions : List Condition
  enabled : List NoticeClass
  engine : EngineState
  reason : HoldReason
  held : Nat
  faultLatched : Bool
  faultCount : Nat
  free : Nat
  queued : Nat
  routed : Nat
  alerting : Nat
  answered : Nat
  closing : Nat
  routeLists : Nat
  settlement : Nat
  seq : BitVec 32
  count : Nat
  wall : Wall
  inBuffer : Nat
  outHeld : Nat
  outFree : Nat
  checkErrors : Nat
  overruns : Nat
  rejects : Nat
  noticesLost : Nat
  deriving DecidableEq, Repr

/-- The seven device settings as adopted (R198). -/
structure Settings where
  ordinaryReserve : Nat
  bulkReserve : Nat
  destinationWindow : Nat
  crankbackLimit : Nat
  attemptTimeout : Nat
  holdWait : Nat
  watermark : Nat
  deriving DecidableEq, Repr

/-- The five states of a circuit by name (R45). -/
inductive CircuitState where
  | idle | out | inc | guard | blocked
  deriving DecidableEq, Repr

/-- The fields a DONE reply carries, by request. -/
inductive Done where
  /-- PROCEED, ANSWER, RELEASE, PREFIX DELETE, WARM RESTART, COLD RESTART -/
  | plain
  | context (view : ContextView)
  | entryWritten (bank : BankId) (index : Nat) (entry : NumberEntry)
  | entryRead (bank : BankId) (active : Bool) (enabled index : Nat) (entry : NumberEntry)
  | banksCopied (enabledA enabledB : Nat)
  | bankSwapped (active : BankId) (enabledA enabledB : Nat)
  | groupDefined (group : Nat) (record : GroupRecord) (count total : Nat)
  | groupService (former new : ServiceState)
  | group (view : GroupView)
  /-- CIRCUIT BLOCK and CIRCUIT UNBLOCK: the state and the block-pending mark after the request (R51, R52) -/
  | circuit (state : CircuitState) (blockPending : Bool)
  | counters (counters : Counters)
  | routeListWritten (list : Nat) (held : Option RouteList) (defined : Nat)
  | routeList (held : RouteList) (standing : List (Nat × Option GroupStanding)) (defined : Nat)
  /-- GAP ADD: the slot, the fields as adopted, the lifetime in seconds or PERMANENT, and whether an entry was replaced
  (R129) -/
  | gapAdded (slot : Nat) (digits : List Nat) (interval : Nat) (lifetime : Option Nat) (replaced : Bool)
  | gapRemoved (slot : Nat) (entry : GapEntry)
  | gaps (entries : List GapView) (inUse hostSet automatic : Nat)
  | timeSet (before after : Wall) (count flagged : Nat)
  | calendar (mask : List Weekday) (holidays : List Date)
  | bands (dayClass : DayClass) (entries : List BandEntry)
  | carrier (carrier : Nat) (agreement : Carrier)
  | records (given : List Record) (count : Nat) (oldest : Option (BitVec 32)) (seq : BitVec 32) (closing : Nat)
  | discarded (removed moved count : Nat) (oldest : Option (BitVec 32)) (closing : Nat)
  | engine (state : EngineState) (reason : HoldReason) (routed : Nat)
  | resumed (released routed failed left : Nat) (state : EngineState) (reason : HoldReason)
  | stepped (ref prio : Nat) (result : StepResult) (state : EngineState) (left : Nat)
  | trial (view : TrialView)
  | faultAck (fault : LatchedFault) (count : Nat)
  | heldMeasurement (setting running : Bool)
  | status (view : StatusView)
  | notices (enabled : List NoticeClass) (conditions : List Condition)
  | settings (values : Settings)
  deriving DecidableEq, Repr

/-- Replies (R192). -/
inductive Reply where
  | done (fields : Done)
  | route (ref group circuit position attempt : Nat)
  | queued (ref : Nat)
  | refuse (cause : Cause) (figures : Figures)
  | reject (kind : Byte) (reason : RejectReason)
  deriving DecidableEq, Repr

/-- Call reports, which concern a call the part holds (R90, R181). -/
inductive CallReport where
  | routeReport (ref : Nat) (reason : ReportReason) (group circuit : Nat)
  | callFailed (ref : Nat) (cause : Cause)
  deriving DecidableEq, Repr

/-- A message in the output queue (R193). Only a reply bears a tag other than 0. -/
inductive Message where
  | reply (tag : Tag) (reply : Reply)
  | report (report : CallReport)
  | notice (notice : Notice)
  | restarted (figures : Restarted)
  deriving DecidableEq, Repr

/-! ### Link interface (11) -/

/-- The frame receiver (R190). Hunting remembers whether the last byte was the first sync byte; assembling holds the
bytes after the sync pair and the instant of the last byte. -/
inductive Receiver where
  | hunting (sawFirst : Bool)
  | assembling (bytes : List Byte) (last : Nat)
  deriving DecidableEq, Repr

/-- The link interface (R190 to R200). `txd` is the model's own record of the messages sent whole on LINK
TXD (log 9). -/
structure Link where
  rx : Receiver
  inBuf : List Frame
  outQueue : List Message
  reserved : Nat
  checkErrors : Nat
  overruns : Nat
  rejects : Nat
  noticesLost : Nat
  enabled : List NoticeClass
  conditions : List Condition
  resetLine : Bool
  txd : List Message
  deriving DecidableEq, Repr

/-- The context store (R1, R2, R6, R15, R17). `contexts` lists the contexts in use, `generations` the generations
other than 0, `reports` the pending-report list with each context's pending report. -/
structure ContextStore where
  contexts : Table Context
  generations : Table Nat
  freeList : List Nat
  closing : List Nat
  reports : List (Nat × CallReport)
  ordinaryReserve : Nat
  bulkReserve : Nat
  deriving DecidableEq, Repr

/-! ### The state -/

/-- The state of the part: its blocks (00, section 2.1) and the model's queue of waiting commands. -/
structure State where
  link : Link
  ctx : ContextStore
  num : Analysis
  groups : Table CircuitGroup
  sel : Selector
  gap : GapTable
  time : TimeBase
  rate : RatingUnit
  eng : Engine
  pending : List Instr
  deriving DecidableEq, Repr

/-- Faults. The spec names no event that stops the part, so there is none, and no command ends in one (safe: nothing
is claimed of a machine that stopped). -/
inductive Fault where
  deriving DecidableEq, Repr

/-- Refusals. -/
inductive Refusal where
  /-- Raised by an arm of exec whose command has no meaning yet; no arm raises it now. Safe: the run stops. -/
  | notModelled (mnemonic : String)
  deriving DecidableEq, Repr

/-- The outcome of a command or a step. -/
abbrev Out := Host.Outcome State Fault Refusal

/-- The state right after the release of the RESET line: the cold restart of every block, RESTARTED queued and LINK
READY asserted (R20, R38, R61, R85, R123, R137, R152, R173, R188, R196, R197, R200, R201; log 22, log 31). -/
def State.reset : State where
  link :=
    { rx := .hunting false, inBuf := [],
      outQueue := [.restarted
        { cause := .resetLine, count := 0, wall := none, engine := .held, reason := .start,
          conditions := [.timeUnset, .engineNotRunning], warm := none }],
      reserved := 0, checkErrors := 0, overruns := 0, rejects := 0, noticesLost := 0,
      enabled := [.fault, .engine, .condition], conditions := [.timeUnset, .engineNotRunning],
      resetLine := false, txd := [] }
  ctx :=
    { contexts := [], generations := [], freeList := List.range' 0 Config.contextCount, closing := [],
      reports := [], ordinaryReserve := Config.ordinaryReserveDefault, bulkReserve := Config.bulkReserveDefault }
  num :=
    { bankA := [], bankB := [], active := .a, destLength := Config.destinationWindowDefault,
      destRemaining := Config.destinationWindowDefault * 10 }
  groups := []
  sel :=
    { routeLists := [], crankbackLimit := Config.crankbackLimitDefault,
      attemptTimeout := Config.attemptTimeoutDefault }
  gap := { slots := [], autoList := [] }
  time :=
    { count := 0, wall := none, weekendMask := [.saturday, .sunday], holidays := [],
      weekdayBands := [⟨0, 0⟩], weekendBands := [⟨0, 0⟩], holidayBands := [⟨0, 0⟩] }
  rate := { carriers := [], queue := [], seq := 0, watermark := Config.watermarkDefault }
  eng :=
    { state := .held, reason := .start, stepped := none, held := [], fault := none, faultCount := 0,
      heldMeasurement := false, holdWait := Config.holdWaitDefault }
  pending := []

end Sys2Proof.Machine
end

