-- ==== Sys2Proof/Machine/Ops.lean ====
section
/-! DEFINITION. The named operations the meanings share: sparse tables, saturating counters, the output queue,
notices, replies and call reports, and the taking of a request. -/

namespace Sys2Proof.Machine

open Sys2Proof

/-! ### Sparse tables -/

/-- The record listed under number `i`, if any. -/
def Table.find {α : Type} : Table α → Nat → Option α
  | [], _ => none
  | (k, v) :: t, i => if k = i then some v else Table.find t i

/-- The table with `v` under number `i`, numbers still rising. -/
def Table.put {α : Type} : Table α → Nat → α → Table α
  | [], i, v => [(i, v)]
  | (k, w) :: t, i, v =>
    if i < k then (i, v) :: (k, w) :: t
    else if i = k then (i, v) :: t
    else (k, w) :: Table.put t i v

/-- The table with nothing under number `i`. -/
def Table.del {α : Type} (t : Table α) (i : Nat) : Table α := t.filter (fun e => e.1 != i)

/-- The record under number `i` in a table whose unlisted numbers stand for `d`. -/
def Table.getD {α : Type} (t : Table α) (i : Nat) (d : α) : α := (Table.find t i).getD d

/-- Write in a table whose unlisted numbers stand for `d`: an entry equal to `d` is not listed. -/
def Table.store {α : Type} [DecidableEq α] (t : Table α) (i : Nat) (v d : α) : Table α :=
  if v = d then Table.del t i else Table.put t i v

/-- Change the record under `i` where one is listed. -/
def Table.modify {α : Type} (t : Table α) (i : Nat) (f : α → α) : Table α :=
  t.map (fun e => if e.1 = i then (e.1, f e.2) else e)

/-- The numbers rise strictly: the canonical form of a table. -/
def Table.wf {α : Type} : Table α → Bool
  | [] => true
  | (k, _) :: t => t.all (fun e => k < e.1) && Table.wf t

/-! ### Small list operations -/

/-- Change the last element: the newest attempt of a list kept oldest first. -/
def modifyLast {α : Type} (f : α → α) : List α → List α
  | [] => []
  | [a] => [f a]
  | a :: b :: t => a :: modifyLast f (b :: t)

/-- Insert in an ascending list. -/
def insertBy {α : Type} (before : α → α → Bool) (a : α) : List α → List α
  | [] => [a]
  | b :: t => if before a b then a :: b :: t else b :: insertBy before a t

/-- Sort ascending. -/
def sortBy {α : Type} (before : α → α → Bool) (l : List α) : List α := l.foldr (insertBy before) []

/-- The elements up to and including the first that satisfies `p`. -/
def takeThrough {α : Type} (p : α → Bool) : List α → List α
  | [] => []
  | a :: t => if p a then [a] else a :: takeThrough p t

/-- No element stands twice. -/
def noRepeats {α : Type} [BEq α] : List α → Bool
  | [] => true
  | a :: t => !t.contains a && noRepeats t

/-- The place of an element, counted from 1 at the head. -/
def placeOf {α : Type} [BEq α] (a : α) (l : List α) : Option Nat := (l.findIdx? (· == a)).map (· + 1)

/-- A set over the names `all`, kept in the order of `all`: with `x` present or absent as `p` says. -/
def putInSet {α : Type} [BEq α] (all : List α) (x : α) (p : Bool) (set : List α) : List α :=
  all.filter (fun y => if y == x then p else set.contains y)

end Sys2Proof.Machine

namespace Sys2Proof

/-- The names of the notice classes (R194). -/
def NoticeClass.all : List NoticeClass :=
  [.congestion, .measurement, .gap, .fault, .engine, .counter, .circuit, .condition]

end Sys2Proof

namespace Sys2Proof.Machine

open Sys2Proof

/-- The names of the standing conditions (11, section 11.6). -/
def Condition.all : List Condition :=
  [.faultLatched, .contextsInReserve, .settlementBacklog, .recordsPending, .timeUnset, .engineNotRunning,
    .groupAtLevel3, .counterWrapped]

/-! ### Arithmetic -/

/-- Addition that stays at its bound (R106, R197). -/
def satAdd (bound a b : Nat) : Nat := min bound (a + b)

/-- A value brought to the nearest end of its range (00, section 3.3). -/
def clamp (lo hi v : Nat) : Nat := max lo (min hi v)

/-- Division rounded up. -/
def ceilDiv (a b : Nat) : Nat := (a + b - 1) / b

/-- The time from the present to a deadline, none where it has passed (log 29). -/
def remaining (now deadline : Nat) : Nat := deadline - now

/-! ### The output queue -/

/-- Free places: neither holding a message nor reserved (R193). -/
def Link.free (l : Link) : Nat := Config.outPlaces - (l.outQueue.length + l.reserved)

/-- A message joins the tail (R193). -/
def Link.enqueue (m : Message) (l : Link) : Link := { l with outQueue := l.outQueue ++ [m] }

/-- The class of a notice (R194). -/
def Notice.classOf : Notice → NoticeClass
  | .congestionChange .. => .congestion
  | .measurementReport .. => .measurement
  | .gapChange .. => .gap
  | .gapTableFull .. => .gap
  | .tableFault .. => .fault
  | .engineState .. => .engine
  | .counterWrap .. => .counter
  | .circuitAutoBlocked .. => .circuit
  | .condition .. => .condition

/-- The handling of a notice (R194): dropped where its class is disabled, queued where more than 64 places are free,
else discarded and counted. -/
def Link.notice (n : Notice) (l : Link) : Link :=
  if l.enabled.contains n.classOf then
    if Config.noticeRoom < l.free then l.enqueue (.notice n)
    else { l with noticesLost := satAdd Config.counterBound l.noticesLost 1 }
  else l

/-- A notice is produced (R194). -/
def postNotice (n : Notice) (s : State) : State := { s with link := s.link.notice n }

/-- A reply joins the tail in the place reserved for it (R193). -/
def sendReply (tag : Tag) (r : Reply) (s : State) : State :=
  { s with link := { s.link.enqueue (.reply tag r) with reserved := s.link.reserved - 1 } }

/-- A reserved place is released unused (R193, R199). -/
def releasePlace (s : State) : State := { s with link := { s.link with reserved := s.link.reserved - 1 } }

/-- A call report of a context (R17, R193). It replaces the context's pending report where there is one; else it joins
the output queue where a place is free; else it waits, and the context joins the pending-report list. -/
def callReport (ctx : Nat) (r : CallReport) (s : State) : State :=
  if s.ctx.reports.any (fun e => e.1 == ctx) then
    { s with ctx := { s.ctx with
        reports := s.ctx.reports.map (fun e => if e.1 = ctx then (ctx, r) else e) } }
  else if 0 < s.link.free then { s with link := s.link.enqueue (.report r) }
  else { s with ctx := { s.ctx with reports := s.ctx.reports ++ [(ctx, r)] } }

/-! ### The input buffer (R191) -/

/-- A good frame joins the tail, or is discarded and counted where the buffer holds 64 (R191). -/
def Link.accept (f : Frame) (l : Link) : Link :=
  if l.inBuf.length < Config.inPlaces then { l with inBuf := l.inBuf ++ [f] }
  else { l with overruns := satAdd Config.counterBound l.overruns 1 }

/-! ### Taking a request (R192) -/

/-- The request kinds of the catalogue (11, section 11.8). -/
def requestKinds : List Byte :=
  [1, 2, 3, 4, 5, 6, 16, 17, 18, 19, 20, 24, 25, 26, 27, 28, 29, 32, 33, 40, 41, 42, 48, 49, 50, 51, 52, 56, 57,
    64, 65, 66, 67, 68, 69, 70, 80, 81, 82, 83, 84, 85]

/-- The places a request of this kind needs (R192). -/
def placesNeeded (kind : Byte) : Nat := if kind = 84 then 2 else 1

/-- The body length of a SETUP is 11 plus the digit count it carries (R192, section 11.9). -/
def setupLengthGood (body : List Byte) : Bool :=
  match body[10]? with
  | some n => body.length == 11 + n.toNat
  | none => false

/-- The first of the three tests that a taken frame fails (R192). -/
def frameFault (f : Frame) : Option RejectReason :=
  if !requestKinds.contains f.kind then some .unknownKind
  else if f.tag = 0 then some .tagZero
  else if f.kind = 1 && !setupLengthGood f.body then some .badBody
  else none

/-- The frame at the head of the input buffer is taken where it is the one meant and the places it needs are free;
the places are reserved and the frame leaves the buffer (R192). With the buffer empty the frame arrives and is taken at
once (log 5). `none`: it is not taken now. -/
def takeFrame (isMine : Frame → Bool) (places : Nat) (s : State) : Option State :=
  if s.link.resetLine then none
  else if s.link.free < places then none
  else
    match s.link.inBuf with
    | [] => some { s with link := { s.link with reserved := s.link.reserved + places } }
    | f :: rest =>
      if isMine f then
        some { s with link := { s.link with inBuf := rest, reserved := s.link.reserved + places } }
      else none

/-- The frame of a command that cannot be taken now: it stays where it waits, or arrives behind the frames before it
(R191, R192; log 7). Nothing arrives while the RESET line is asserted (R200, log 20). -/
def arrive (isMine : Frame → Bool) (f : Frame) (s : State) : State :=
  if s.link.resetLine || s.link.inBuf.any isMine then s else { s with link := s.link.accept f }

/-- A taken frame is answered REJECT and counted; every place reserved for it is given up (R192, R199). -/
def rejectTaken (kind : Byte) (tag : Tag) (reason : RejectReason) (s : State) : State :=
  let t := sendReply tag (.reject kind reason)
    { s with link := { s.link with rejects := satAdd Config.counterBound s.link.rejects 1 } }
  { t with link := { t.link with reserved := 0 } }

/-- The frame of a command is taken, and `act` is done with it; or it waits in the input buffer until the command is
given again and can be taken (R192). `fault` is the test that the frame fails, if any. -/
def serveFrame (isMine : Frame → Bool) (f : Frame) (fault : Option RejectReason) (act : State → State) (s : State) :
    State :=
  match takeFrame isMine (placesNeeded f.kind) s with
  | none => arrive isMine f s
  | some t =>
    match fault with
    | some reason => rejectTaken f.kind f.tag reason t
    | none => act t

/-- A request whose block answers it with the one reply (R192). -/
def serve (isMine : Frame → Bool) (f : Frame) (fault : Option RejectReason) (act : State → State × Reply) (s : State) :
    State :=
  serveFrame isMine f fault (fun t => let r := act t; sendReply f.tag r.2 r.1) s

/-- The frame of a request given by its named fields; what spells the fields is free (log 6). -/
def requestFrame (c : Instr) (kind : Byte) (tag : Tag) : Frame := ⟨kind, tag, Config.requestBody c⟩

/-- A frame is that of a request given by its named fields: its kind and tag (log 6). -/
def isRequest (kind : Byte) (tag : Tag) (f : Frame) : Bool := f.kind == kind && f.tag == tag

/-- The test that a typed request's frame can fail: its tag (R192; log 28). -/
def tagFault (tag : Tag) : Option RejectReason := if tag = 0 then some .tagZero else none

/-- A typed request: taken, served and answered, or left waiting (R192). -/
def request (c : Instr) (kind : Byte) (tag : Tag) (act : State → State × Reply) (s : State) : Out :=
  .next (serve (isRequest kind tag) (requestFrame c kind tag) (tagFault tag) act s)

/-- A refusal that carries no figures and changes nothing (00, section 3.4). -/
def refuse (c : Cause) (s : State) : State × Reply := (s, .refuse c .none)

/-- A DONE reply. -/
def done (d : Done) (s : State) : State × Reply := (s, .done d)

/-! ### Context store lookups -/

/-- The generation of a context (R2). -/
def generation (s : State) (i : Nat) : Nat := Table.getD s.ctx.generations i 0

/-- The call reference of a context: index times 8 plus generation (R2). -/
def refOf (s : State) (i : Nat) : Nat := i * Config.generationCount + generation s i

/-- The context in use under an index (R1). -/
def contextAt (s : State) (i : Nat) : Option Context := Table.find s.ctx.contexts i

/-- The context in use that a reference names, with its index (R3, second check). -/
def contextOfRef (s : State) (ref : Nat) : Option (Nat × Context) :=
  match contextAt s (ref / Config.generationCount) with
  | some c =>
    if generation s (ref / Config.generationCount) = ref % Config.generationCount then
      some (ref / Config.generationCount, c)
    else none
  | none => none

/-- Write a context in use. -/
def putContext (i : Nat) (c : Context) (s : State) : State :=
  { s with ctx := { s.ctx with contexts := Table.put s.ctx.contexts i c } }

/-- Change a context in use. -/
def modifyContext (i : Nat) (f : Context → Context) (s : State) : State :=
  { s with ctx := { s.ctx with contexts := Table.modify s.ctx.contexts i f } }

/-- F, the free count (R2). Figures such as this are computed from the state they count (log 18). -/
def freeCount (s : State) : Nat := s.ctx.freeList.length

/-- The number of contexts in a state (R19). -/
def countState (st : CallState) (s : State) : Nat := s.ctx.contexts.countP (fun e => e.2.state == st)

/-- The number of contexts in ROUTED, which the engine supervisor follows (R19). -/
def routedCount (s : State) : Nat := countState .routed s

/-- The newest attempt record (R4). -/
def Context.newest (c : Context) : Option Attempt := c.attempts.getLast?

/-- An attempt whose circuit the context holds as its outgoing circuit (R4). -/
def Attempt.holdsCircuit (a : Attempt) : Bool :=
  match a.outcome with
  | .inProgress => true
  | .proceeded => true
  | _ => false

/-- The outgoing circuit the context holds, as group and circuit number (R4, R16). -/
def Context.outgoing (c : Context) : Option (Nat × Nat) :=
  match c.state, c.newest with
  | .closing, _ => none
  | _, some a => if a.holdsCircuit then some (a.group, a.circuit) else none
  | _, none => none

/-- The present monotonic count (R139). -/
def now (s : State) : Nat := s.time.count

/-! ### Groups -/

/-- The record of a defined group (R40). -/
def groupAt (s : State) (g : Nat) : Option CircuitGroup := Table.find s.groups g

/-- Change a defined group. -/
def modifyGroup (g : Nat) (f : CircuitGroup → CircuitGroup) (s : State) : State :=
  { s with groups := Table.modify s.groups g f }

/-- Define or redefine a group. -/
def putGroup (g : Nat) (gr : CircuitGroup) (s : State) : State :=
  { s with groups := Table.put s.groups g gr }

/-! ### Windows -/

/-- The group windows and the destination window run while the engine is RUNNING or held measurement is on (R37,
R120). -/
def windowsRunning (s : State) : Bool := s.eng.state == .running || s.eng.heldMeasurement

end Sys2Proof.Machine
end

