-- ==== Sys2Proof/Machine/Flags.lean ====
section
/-! DEFINITION. The standing conditions, each re-evaluated from the state it stands for, the counter wrap marks behind
one of them, and the two output lines (R191, R196). -/

namespace Sys2Proof.Machine

open Sys2Proof

/-- The owner reports whether its condition is present (R196): a change alters the set and produces a CONDITION notice
with the whole set after the change. -/
def setCondition (c : Condition) (present : Bool) (s : State) : State :=
  if s.link.conditions.contains c = present then s
  else
    let set := putInSet Condition.all c present s.link.conditions
    postNotice (.condition c present set) { s with link := { s.link with conditions := set } }

/-- "fault latched" is present while the fault slot holds a fault (R185, R186). -/
def faultLatched (s : State) : Bool := s.eng.fault.isSome

/-- "contexts in reserve" is present while F is at or below the ordinary reserve (R6). -/
def inReserve (s : State) : Bool := freeCount s ≤ s.ctx.ordinaryReserve

/-- "settlement backlog" is present while the queue count is at or above the watermark (R171). -/
def inBacklog (s : State) : Bool := s.rate.watermark ≤ s.rate.queue.length

/-- "records pending" is present while a context is CLOSING (R19). -/
def recordsPending (s : State) : Bool := 0 < countState .closing s

/-- "time unset" is present while the wall clock is UNSET (R140). -/
def timeUnset (s : State) : Bool := s.time.wall.isNone

/-- "engine not running" is present in HOLDING, HELD and STEPPING (R174). -/
def notRunning (s : State) : Bool := s.eng.state != .running

/-- "group at level 3" is present while a group has adopted level 3 (R121). -/
def anyLevel3 (s : State) : Bool := s.groups.any (fun e => e.2.meas.adopted == 3)

/-- Some wrap mark of these counters is set (R59). -/
def Counters.anyWrapped (c : Counters) : Bool :=
  c.bids.wrapped || c.seizures.wrapped || c.overflows.wrapped || c.crankbacks.wrapped || c.glaresWon.wrapped ||
    c.glaresLost.wrapped || c.incoming.wrapped

/-- "counter wrapped" is present while a wrap mark of any group is set (R59). -/
def anyWrapped (s : State) : Bool := s.groups.any (fun e => e.2.counters.anyWrapped)

/-- Whether the state calls for a condition (11, section 11.6). -/
def holdsNow (c : Condition) (s : State) : Bool :=
  match c with
  | .faultLatched => faultLatched s
  | .contextsInReserve => inReserve s
  | .settlementBacklog => inBacklog s
  | .recordsPending => recordsPending s
  | .timeUnset => timeUnset s
  | .engineNotRunning => notRunning s
  | .groupAtLevel3 => anyLevel3 s
  | .counterWrapped => anyWrapped s

/-- The owner re-evaluates its condition and reports a beginning or an ending (R196). -/
def recheck (c : Condition) (s : State) : State := setCondition c (holdsNow c s) s

/-- LINK READY is asserted while the buffer holds fewer than 64 frames and the RESET line is released (R191, R200). -/
def State.linkReady (s : State) : Bool := !s.link.resetLine && s.link.inBuf.length < Config.inPlaces

/-- ATTN is asserted while a condition is present and CONDITION is enabled, and the RESET line is released (R196,
R200). -/
def State.attn (s : State) : Bool :=
  !s.link.resetLine && !s.link.conditions.isEmpty && s.link.enabled.contains .condition

/-! ### Cumulative counters (R58, R59) -/

/-- Read one counter. -/
def Counters.get (c : Counters) : CounterName → Counter
  | .bids => c.bids
  | .seizures => c.seizures
  | .overflows => c.overflows
  | .crankbacks => c.crankbacks
  | .glaresWon => c.glaresWon
  | .glaresLost => c.glaresLost
  | .incoming => c.incoming

/-- Write one counter. -/
def Counters.set (c : Counters) (n : CounterName) (v : Counter) : Counters :=
  match n with
  | .bids => { c with bids := v }
  | .seizures => { c with seizures := v }
  | .overflows => { c with overflows := v }
  | .crankbacks => { c with crankbacks := v }
  | .glaresWon => { c with glaresWon := v }
  | .glaresLost => { c with glaresLost := v }
  | .incoming => { c with incoming := v }

/-- All seven counters at 0 with their marks clear (R42). -/
def Counters.zero : Counters :=
  ⟨⟨0, false⟩, ⟨0, false⟩, ⟨0, false⟩, ⟨0, false⟩, ⟨0, false⟩, ⟨0, false⟩, ⟨0, false⟩⟩

/-- Clear the seven wrap marks (R60). -/
def Counters.clearMarks (c : Counters) : Counters :=
  { bids := { c.bids with wrapped := false }, seizures := { c.seizures with wrapped := false },
    overflows := { c.overflows with wrapped := false }, crankbacks := { c.crankbacks with wrapped := false },
    glaresWon := { c.glaresWon with wrapped := false }, glaresLost := { c.glaresLost with wrapped := false },
    incoming := { c.incoming with wrapped := false } }

/-- A counter raised by one: from 4,294,967,295 to 0 it wraps and its mark is set (R58, R59). -/
def Counter.raise (c : Counter) : Counter := ⟨c.value + 1, c.wrapped || c.value + 1 == 0⟩

/-- An increment of bids, overflows or crankbacks raises the window accumulator of the same name (R58, R111). -/
def Measurement.count (n : CounterName) (m : Measurement) : Measurement :=
  match n with
  | .bids => { m with bids := satAdd Config.counterBound m.bids 1 }
  | .overflows => { m with overflows := satAdd Config.counterBound m.overflows 1 }
  | .crankbacks => { m with crankbacks := satAdd Config.counterBound m.crankbacks 1 }
  | _ => m

/-- Raise one counter of a group record (R58, R111). -/
def CircuitGroup.raise (n : CounterName) (gr : CircuitGroup) : CircuitGroup :=
  { gr with counters := gr.counters.set n (gr.counters.get n).raise, meas := gr.meas.count n }

/-- A counter of a group is raised: on a wrap the mark is set, COUNTER WRAP is sent and "counter wrapped" is
re-evaluated (R58, R59). -/
def raiseCounter (g : Nat) (n : CounterName) (s : State) : State :=
  match groupAt s g with
  | none => s
  | some gr =>
    let t := modifyGroup g (·.raise n) s
    if (gr.counters.get n).value + 1 = 0 then recheck .counterWrapped (postNotice (.counterWrap g n) t) else t

end Sys2Proof.Machine
end

