-- ==== Sys2Proof/Machine/TimeBase.lean ====
section
/-! DEFINITION. The civil calendar, day classes and bands, and the lookups the time base answers (08). -/

namespace Sys2Proof.Machine

open Sys2Proof

/-! ### The civil calendar of 2000 to 2099 (R141) -/

/-- A year of the range is a leap year when its number is divisible by 4 (R141). -/
def leapYear (y : Nat) : Bool := y % 4 == 0

/-- Days of a month (R141). -/
def monthLength (y m : Nat) : Nat :=
  if m = 2 then (if leapYear y then 29 else 28)
  else if m = 4 || m = 6 || m = 9 || m = 11 then 30
  else 31

/-- A valid date (R141). -/
def validDate (d : Date) : Bool :=
  2000 ≤ d.year && d.year ≤ 2099 && 1 ≤ d.month && d.month ≤ 12 && 1 ≤ d.day && d.day ≤ monthLength d.year d.month

/-- Days from the first of January to the first of the month (R141). -/
def daysBeforeMonth (y : Nat) : Nat → Nat
  | 0 => 0
  | m + 1 => if m = 0 then 0 else daysBeforeMonth y m + monthLength y m

/-- Days from 1 January 2000 to the date (R141). -/
def dayNumber (d : Date) : Nat :=
  (d.year - 2000) * 365 + (d.year - 2000 + 3) / 4 + daysBeforeMonth d.year d.month + (d.day - 1)

/-- The weekday of a day count from Saturday, 1 January 2000 (R141). -/
def weekdayOf (d : Date) : Weekday :=
  match dayNumber d % 7 with
  | 0 => .saturday
  | 1 => .sunday
  | 2 => .monday
  | 3 => .tuesday
  | 4 => .wednesday
  | 5 => .thursday
  | _ => .friday

/-- The next date, or none past 31 December 2099 (R140, R141). -/
def nextDate (d : Date) : Option Date :=
  if d.day < monthLength d.year d.month then some { d with day := d.day + 1 }
  else if d.month < 12 then some { d with month := d.month + 1, day := 1 }
  else if d.year < 2099 then some ⟨d.year + 1, 1, 1⟩
  else none

/-- The date a number of days later, or none past 31 December 2099 (R141). -/
def addDays : Nat → Date → Option Date
  | 0, d => some d
  | n + 1, d =>
    match nextDate d with
    | some e => addDays n e
    | none => none

/-- A wall instant plus a number of deciseconds: it carries past midnight as often as it must, and past 31 December
2099 it is UNSET (R141, R147). -/
def addDs (w : Wall) (n : Nat) : Wall :=
  match w with
  | none => none
  | some t =>
    match addDays ((t.tod + n) / Config.dayDs) t.date with
    | some d => some ⟨d, (t.tod + n) % Config.dayDs⟩
    | none => none

/-- Date order. -/
def dateBefore (a b : Date) : Bool := dayNumber a < dayNumber b

/-! ### Day class and band (R143, R145) -/

/-- The day class of a date: HOLIDAY, then WEEKEND, then WEEKDAY (R143). -/
def dayClassOf (tb : TimeBase) (d : Date) : DayClass :=
  if tb.holidays.contains d then .holiday
  else if tb.weekendMask.contains (weekdayOf d) then .weekend
  else .weekday

/-- The band list of a day class (R145). -/
def bandList (tb : TimeBase) : DayClass → List BandEntry
  | .weekday => tb.weekdayBands
  | .weekend => tb.weekendBands
  | .holiday => tb.holidayBands

/-- The band of the entry with the greatest start minute at or below the minute (R145). -/
def bandOfMinute (l : List BandEntry) (minute : Nat) : Nat :=
  match (l.filter (fun e => e.start ≤ minute)).getLast? with
  | some e => e.band
  | none => 0

/-- Day class and band in effect at a wall instant; `none` where the instant is UNSET (R145, R147). -/
def bandAt (tb : TimeBase) : Wall → Option (DayClass × Nat)
  | none => none
  | some t =>
    let c := dayClassOf tb t.date
    some (c, bandOfMinute (bandList tb c) (t.tod / 600))

/-- What the route selector and the rating unit make of an UNSET instant: WEEKDAY, band 0 (R74, R156, R163). -/
def bandOrFirst (tb : TimeBase) (w : Wall) : DayClass × Nat := (bandAt tb w).getD (.weekday, 0)

/-! ### Advancing the clocks (R139, R140) -/

/-- The monotonic count after one advance; past its upper bound the value is free (R139, log 4). -/
def nextCount (n : Nat) : Nat := if n = Config.monotonicBound then Config.countPastBound.toNat else n + 1

/-- The wall clock after one advance (R140): one decisecond more, the next date at midnight, UNSET past 2099. -/
def nextWall (w : Wall) : Wall := addDs w 1

end Sys2Proof.Machine
end

