-- ==== Sys2Proof/Machine/Operands.lean ====
section
/-! DEFINITION. The operand forms: the range checks that refuse BAD FIELD, the clamps, the defaults, and the fields of
a SETUP as its frame lays them out (00, section 3.3; 11, section 11.9). -/

namespace Sys2Proof.Machine

open Sys2Proof

/-- A list of decimal digits whose length lies in a range (00, section 3.2). -/
def digitsGood (lo hi : Nat) (l : List Nat) : Bool := lo ≤ l.length && l.length ≤ hi && l.all (· ≤ 9)

end Sys2Proof.Machine

namespace Sys2Proof

open Sys2Proof.Machine

/-- A value given, or the present one for KEEP (R144, R198). -/
def Keep.over {α : Type} (k : Keep α) (present : α) : α :=
  match k with
  | .keep => present
  | .to a => a

/-- A value given, or the default (R107). -/
def OrDefault.over {α : Type} (o : OrDefault α) (dflt : α) : α :=
  match o with
  | .default => dflt
  | .value a => a

end Sys2Proof

namespace Sys2Proof.Machine

open Sys2Proof

/-- Clamp a threshold triple and raise each level to the one before it (R107). -/
def orderTriple (hi : Nat) (t : Triple) : Triple :=
  let a := clamp 1 hi t.l1
  let b := max a (clamp 1 hi t.l2)
  ⟨a, b, max b (clamp 1 hi t.l3)⟩

/-- Clamp the reservations and raise each level to the one before it (R42). -/
def orderQuad (q : Quad) : Quad :=
  let a := clamp 0 511 q.l0
  let b := max a (clamp 0 511 q.l1)
  let c := max b (clamp 0 511 q.l2)
  ⟨a, b, c, max c (clamp 0 511 q.l3)⟩

end Sys2Proof.Machine

namespace Sys2Proof

open Sys2Proof.Machine

/-- The reservation figure for an adopted level (R40, R72). -/
def Quad.at (q : Quad) : Nat → Nat
  | 0 => q.l0
  | 1 => q.l1
  | 2 => q.l2
  | _ => q.l3

/-- The highest level whose threshold is at or below the figure, 0 where none is (R114). -/
def Triple.level (t : Triple) (v : Nat) : Nat :=
  if t.l3 ≤ v then 3 else if t.l2 ≤ v then 2 else if t.l1 ≤ v then 1 else 0

/-- Clamp the rates of one day class (R150). -/
def BandRates.clamped (r : BandRates) : BandRates :=
  ⟨clamp 0 1000000 r.b0, clamp 0 1000000 r.b1, clamp 0 1000000 r.b2, clamp 0 1000000 r.b3⟩

/-- The rate of a band (R148). -/
def BandRates.at (r : BandRates) : Nat → Nat
  | 0 => r.b0
  | 1 => r.b1
  | 2 => r.b2
  | _ => r.b3

/-- The rate for a day class and band (R148). -/
def Rates.at (r : Rates) (c : DayClass) (band : Nat) : Nat :=
  match c with
  | .weekday => r.weekday.at band
  | .weekend => r.weekend.at band
  | .holiday => r.holiday.at band

/-- Clamp one side of an agreement (R150). -/
def Tariff.clamped (t : Tariff) : Tariff :=
  { fee := clamp 0 10000000 t.fee, first := clamp 0 600 t.first, step := clamp 1 60 t.step,
    rates := ⟨t.rates.weekday.clamped, t.rates.weekend.clamped, t.rates.holiday.clamped⟩ }

/-- A side with every figure at its zeroed value (R148). -/
def Tariff.zero : Tariff := ⟨0, 0, 1, ⟨⟨0, 0, 0, 0⟩, ⟨0, 0, 0, 0⟩, ⟨0, 0, 0, 0⟩⟩⟩

end Sys2Proof

namespace Sys2Proof.Machine

open Sys2Proof

/-- The agreement a cold restart gives every carrier (R148, R152). -/
def Carrier.zero : Carrier := ⟨false, 0, Tariff.zero, false, Tariff.zero, 0⟩

/-- The cleared form of a number entry (R23). -/
def NumberEntry.cleared : NumberEntry := ⟨.any, .any, [], .bar, 0, 10, 300, 0⟩

/-- A number entry is enabled when its key holds a digit (R22, R23). -/
def NumberEntry.enabled (e : NumberEntry) : Bool := !e.digits.isEmpty

end Sys2Proof.Machine

namespace Sys2Proof

open Sys2Proof.Machine

/-- The first check of PREFIX WRITE on the written fields, and its clamps (R29): the entry as it would be adopted, or
none where a field is bad. -/
def EntryFields.adopt (f : EntryFields) : Option NumberEntry :=
  let originGood := match f.origin with
    | .any => true
    | .is c => c < Config.carrierCount
  let listGood := match f.outcome with
    | some (.route l) => l < Config.routeListCount
    | some .bar => true
    | none => false
  match f.numClass, f.outcome with
  | some cls, some out =>
    if originGood && listGood && digitsGood 0 16 f.digits then
      some ⟨f.origin, cls, f.digits, out, clamp 0 255 f.threshold, clamp 1 600 f.interval,
        clamp 10 3600 f.lifetime, 0⟩
    else none
  | _, _ => none

/-- The group record a GROUP DEFINE adopts, in the service state given, or none where the field check fails (R41, R42,
R107). A report enable that is neither on nor off fails it as every set-valued field does (00, section 3.3; log 37). -/
def GroupFields.adopt (group : Nat) (f : GroupFields) (service : ServiceState) : Option GroupRecord :=
  match f.direction, f.parity, f.hunting, f.report with
  | some dir, some par, some hunt, some report =>
    if group < Config.groupCount && f.carrier < Config.carrierCount && f.count ≤ Config.groupCircuits
        && !(dir == .bothway && par == .none) then
      some
        { carrier := f.carrier, direction := dir, parity := if dir = .bothway then par else .none,
          hunting := hunt, guard := clamp 0 100 f.guard, service := service,
          window := clamp 1 300 (f.window.over 60),
          occupancy := orderTriple 100 (f.occupancy.over ⟨90, 95, 98⟩),
          overflow := orderTriple 1000 (f.overflow.over ⟨20, 100, 300⟩),
          rise := clamp 1 8 (f.rise.over 2), fall := clamp 1 8 (f.fall.over 3),
          reservations := orderQuad f.reservations, report := report }
    else none
  | _, _, _, _ => none

/-- The agreement a CARRIER WRITE adopts, or none where a field is bad (R150). -/
def CarrierFields.adopt (f : CarrierFields) : Option Carrier :=
  match f.own, f.mirror with
  | some own, some mirror =>
    some ⟨own, f.revision, f.inbound.clamped, mirror, f.outbound.clamped, clamp 0 100 f.premium⟩
  | _, _ => none

end Sys2Proof

namespace Sys2Proof.Machine

open Sys2Proof

/-- The number class that a SETUP's code names (11, section 11.9). -/
def numberClassOf (code : Byte) : Option NumberClass :=
  if code = 1 then some .national
  else if code = 2 then some .international
  else if code = 3 then some .network
  else none

/-- The body of a SETUP (11, section 11.9): every field most significant byte first, the digit count one byte. -/
def setupBody (callId : CallId) (group circuit : BitVec 16) (numClass prio : Byte) (digits : List Byte) : List Byte :=
  [callId.extractLsb' 24 8, callId.extractLsb' 16 8, callId.extractLsb' 8 8, callId.extractLsb' 0 8,
    group.extractLsb' 8 8, group.extractLsb' 0 8, circuit.extractLsb' 8 8, circuit.extractLsb' 0 8,
    numClass, prio, BitVec.ofNat 8 digits.length] ++ digits

/-- The frame of a SETUP (11, section 11.9). -/
def setupFrame (tag : Tag) (callId : CallId) (group circuit : BitVec 16) (numClass prio : Byte) (digits : List Byte) :
    Frame :=
  ⟨1, tag, setupBody callId group circuit numClass prio digits⟩

/-- The names given by a list that may hold a value naming none: all of them, or none where one is bad (R144, R195). -/
def allNamed {α : Type} : List (Named α) → Option (List α)
  | [] => some []
  | none :: _ => none
  | some a :: t =>
    match allNamed t with
    | some l => some (a :: l)
    | none => none

/-- The check of a band list (R146). -/
def bandsGood (l : List BandEntry) : Bool :=
  l.length ≤ 4 && l.all (fun e => e.start ≤ 1439 && e.band ≤ 3) && noRepeats (l.map (·.start))

/-- The band list as held: sorted by start minute, the first start set to 0 (R146). -/
def adoptBands (l : List BandEntry) : List BandEntry :=
  match sortBy (fun a b => a.start < b.start) l with
  | [] => []
  | e :: t => { e with start := 0 } :: t

/-- The check of a holiday list (R144). -/
def holidaysGood (l : List Date) : Bool := l.length ≤ 32 && l.all validDate && noRepeats l

end Sys2Proof.Machine

namespace Sys2Proof

open Sys2Proof.Machine

/-- All seven weekdays, the order in which a weekend mask is kept. -/
def Weekday.all : List Weekday := [.saturday, .sunday, .monday, .tuesday, .wednesday, .thursday, .friday]

end Sys2Proof
end

