-- ==== Sys2Proof/Machine/Rating.lean ====
section
/-! DEFINITION. Handover pricing: the five stages, the margin estimate, the settlement record and its entry to the
queue (09). -/

namespace Sys2Proof.Machine

open Sys2Proof

/-- The agreement of a carrier; an unlisted one has the zeroed values (R148). -/
def agreement (s : State) (c : Nat) : Carrier := Table.getD s.rate.carriers c Carrier.zero

/-! ### Stage 1 (R155) -/

/-- The conversation seconds of a duration: at least 1, part-seconds rounded up (R155). -/
def conversationSeconds (d : Nat) : Nat := max 1 (ceilDiv d 10)

/-! ### Stage 2 (R156, R157) -/

/-- Seconds added to the entry of their day class and band, which joins the tail where it is new (R156). -/
def addSeconds (c : DayClass) (band n : Nat) : List SplitEntry → List SplitEntry
  | [] => [⟨c, band, n⟩]
  | e :: t =>
    if e.dayClass = c ∧ e.band = band then { e with seconds := e.seconds + n } :: t
    else e :: addSeconds c band n t

/-- The wall instant at which conversation second `n` begins (R156). -/
def secondStart (answer : Wall) (n : Nat) : Wall := addDs answer (10 * n)

/-- The band split of `seconds` conversation seconds, in order of first occurrence (R156). -/
def bandSplit (tb : TimeBase) (answer : Wall) (seconds : Nat) : List SplitEntry :=
  (List.range seconds).foldl
    (fun split n =>
      let k := bandOrFirst tb (secondStart answer n)
      addSeconds k.1 k.2 1 split) []

/-- Some conversation second begins at an UNSET instant (R156). -/
def someSecondUnset (answer : Wall) (seconds : Nat) : Bool :=
  (List.range seconds).any (fun n => (secondStart answer n).isNone)

/-- The release band (R157): WEEKDAY band 0 where the answer or the release instant is UNSET. -/
def releaseBand (tb : TimeBase) (answer release : Wall) : DayClass × Nat :=
  if answer.isNone then (.weekday, 0) else bandOrFirst tb release

/-- The flag TIME UNSET (R156, R157, R162). -/
def timeUnsetFlag (answer release : Wall) (seconds : Nat) : Bool :=
  answer.isNone || release.isNone || someSecondUnset answer seconds

/-! ### Stage 3 (R158) -/

/-- The billed seconds of a side (R158). -/
def billedSeconds (seconds first step : Nat) : Nat :=
  if seconds ≤ first then first else first + ceilDiv (seconds - first) step * step

/-- The entry that takes the extra seconds: the release band's, or, where the split is full without it, the last
conversation second's (R158). -/
def extraBandOf (split : List SplitEntry) (release last : DayClass × Nat) : DayClass × Nat :=
  if split.any (fun e => e.dayClass == release.1 && e.band == release.2) then release
  else if split.length < Config.splitEntries then release
  else last

/-! ### Stages 4 and 5 (R159, R160) -/

/-- The sum over a priced split of seconds times rate (R159). -/
def pricedSum (rates : Rates) (split : List SplitEntry) : Nat :=
  (split.map (fun e => e.seconds * rates.at e.dayClass e.band)).sum

/-- The duration amount, rounded half up in the one division (R159). -/
def durationAmount (n premium : Nat) : Nat := (n * (100 + premium) + 3000) / 6000

/-- A side priced with its tariff, first period, step and premium; an OWN side is not computed (R158 to R160). -/
def priceSide (own : Bool) (tariff : Tariff) (first step premium : Nat) (revision : BitVec 16)
    (split : List SplitEntry) (extra : DayClass × Nat) (seconds : Nat) : Side :=
  if own then ⟨true, 0, 0, revision⟩
  else
    let billed := billedSeconds seconds first step
    let priced := addSeconds extra.1 extra.2 (billed - seconds) split
    ⟨false, billed, tariff.fee + durationAmount (pricedSum tariff.rates priced) premium, revision⟩

/-- The receivable side: mirrored on the outbound carrier's figures where the inbound carrier's mirror flag is on (R149,
R158). -/
def receivableSide (inC : Carrier) (outC : Option Carrier) (split : List SplitEntry) (extra : DayClass × Nat)
    (seconds : Nat) : Side :=
  match inC.mirror, outC with
  | true, some o =>
    priceSide inC.own inC.inbound (max inC.inbound.first o.outbound.first) (max inC.inbound.step o.outbound.step) 0
      inC.revision split extra seconds
  | _, _ => priceSide inC.own inC.inbound inC.inbound.first inC.inbound.step 0 inC.revision split extra seconds

/-- The premium that applies to the payable side at a choice position (R149, R159). -/
def premiumAt (outC : Carrier) (position : Nat) : Nat := if position = 0 then 0 else outC.premium

/-- The payable side (R158 to R160). -/
def payableSide (outC : Carrier) (position : Nat) (split : List SplitEntry) (extra : DayClass × Nat) (seconds : Nat) :
    Side :=
  priceSide outC.own outC.outbound outC.outbound.first outC.outbound.step (premiumAt outC position) outC.revision
    split extra seconds

/-- The flag PREMIUM: the payable side was computed with a premium above 0 (R162). -/
def premiumFlag (outC : Carrier) (position : Nat) : Bool := !outC.own && 0 < premiumAt outC position

/-- The extra band of a conversation (R158). -/
def extraBandFor (tb : TimeBase) (answer release : Wall) (seconds : Nat) : DayClass × Nat :=
  extraBandOf (bandSplit tb answer seconds) (releaseBand tb answer release)
    (bandOrFirst tb (secondStart answer (seconds - 1)))

/-! ### Rating a call (R154) -/

/-- The attempt that proceeded (R154). -/
def Context.proceeded (c : Context) : Option Attempt := c.attempts.find? (fun a => a.outcome == .proceeded)

/-- The carrier of a group record; 0 where the group is undefined, which no call holds (R154; log 25). -/
def groupCarrier (s : State) (g : Nat) : Nat :=
  match groupAt s g with
  | some gr => gr.record.carrier
  | none => 0

/-- The settlement record of an ANSWERED context rated now (R154 to R165). -/
def rateContext (s : State) (c : Context) : RecordBody :=
  let d := now s - c.answerCount.getD 0
  let duration := min d Config.longestCallDs
  let seconds := conversationSeconds duration
  let answer := c.answerWall.getD none
  let release := s.time.wall
  let split := bandSplit s.time answer seconds
  let extra := extraBandFor s.time answer release seconds
  let a := c.proceeded
  let outGroup := (a.map (·.group)).getD 0
  let position := (a.map (·.position)).getD 0
  let outCarrier := groupCarrier s outGroup
  let inC := agreement s c.inCarrier
  let outC := agreement s outCarrier
  { callId := c.callId, inGroup := c.inGroup, inCarrier := c.inCarrier, outGroup := outGroup,
    outCarrier := outCarrier, position := position, attempts := c.attempts.length, answerWall := answer,
    duration := duration, seconds := seconds, split := split, extraClass := extra.1, extraBand := extra.2,
    receivable := receivableSide inC (some outC) split extra seconds,
    payable := payableSide outC position split extra seconds,
    flags :=
      { long := Config.longestCallDs < d, timeUnset := timeUnsetFlag answer release seconds,
        timeStep := c.timeStep, restart := c.restart, premium := premiumFlag outC position } }

/-! ### The margin estimate (R163) -/

/-- The inbound rate at a day class and band, 0 for an OWN carrier (R163). -/
def inboundRate (c : Carrier) (k : DayClass × Nat) : Nat := if c.own then 0 else c.inbound.rates.at k.1 k.2

/-- The payable estimate at a position, rounded half up, 0 for an OWN carrier (R163). -/
def payableEstimate (c : Carrier) (position : Nat) (k : DayClass × Nat) : Nat :=
  if c.own then 0 else (c.outbound.rates.at k.1 k.2 * (100 + premiumAt c position) + 50) / 100

/-- The payable estimate and the margin of a candidate now (R74, R163). -/
def marginEstimate (s : State) (inCarrier outCarrier position : Nat) : Nat × Int :=
  let k := bandOrFirst s.time s.time.wall
  let e := payableEstimate (agreement s outCarrier) position k
  (e, (inboundRate (agreement s inCarrier) k : Int) - (e : Int))

/-! ### The settlement queue (R166) -/

/-- A record enters at the tail with the counter's value as its sequence number, and "settlement backlog" is
re-evaluated (R166, R171; log 26). -/
def enterRecord (r : RecordBody) (s : State) : State :=
  recheck .settlementBacklog
    { s with rate := { s.rate with queue := s.rate.queue ++ [⟨s.rate.seq, r⟩], seq := s.rate.seq + 1 } }

/-- Free places of the settlement queue (R21, R167). -/
def settlementRoom (s : State) : Nat := Config.settlementPlaces - s.rate.queue.length

/-- The sequence number of the oldest record (R168). -/
def oldestSeq (s : State) : Option (BitVec 32) := s.rate.queue.head?.map (·.seq)

/-- The bytes a record takes in the reply to READ RECORDS (11, section 11.9). -/
def recordBytes (r : Record) : Nat := 56 + 4 * r.body.split.length

/-- As many leading records as fit in `room` body bytes (R168, R192). -/
def fitting (room : Nat) : List Record → List Record
  | [] => []
  | r :: t => if recordBytes r ≤ room then r :: fitting (room - recordBytes r) t else []

end Sys2Proof.Machine
end

