-- ==== Sys2Proof/Machine/Calendar.lean ====
section
/-! DEFINITION. The requests of the time base and of the carrier agreements (08). -/

namespace Sys2Proof.Machine

open Sys2Proof

/-! ### SET TIME (R142) -/

/-- An ANSWERED context takes the TIME STEP flag (R142). -/
def Context.flagTimeStep (c : Context) : Context := if c.state = .answered then { c with timeStep := true } else c

/-- SET TIME (R142): the wall clock, the TIME STEP flags, the condition "time unset". -/
def doSetTime (date : Date) (tod : Nat) (s : State) : State × Reply :=
  if validDate date && tod < Config.dayDs then
    let w : Wall := some ⟨date, tod⟩
    let t := recheck .timeUnset { s with time := { s.time with wall := w } }
    let u := { t with ctx := { t.ctx with contexts := t.ctx.contexts.map (fun e => (e.1, e.2.flagTimeStep)) } }
    done (.timeSet s.time.wall w (now s) (countState .answered s)) u
  else refuse .badField s

/-- SET TIME (R142). -/
def execSetTime (tag : Tag) (date : Date) (tod : Nat) (s : State) : Out :=
  request (.setTime tag date tod) 48 tag (doSetTime date tod) s

/-! ### HOLIDAY WRITE (R144) -/

/-- The holiday list given is good, or KEEP (R144). -/
def holidaysFieldGood : Keep (List Date) → Bool
  | .keep => true
  | .to l => holidaysGood l

/-- The holiday list in ascending date order, or the one held (R144). -/
def adoptHolidays (k : Keep (List Date)) (present : List Date) : List Date :=
  match k with
  | .keep => present
  | .to l => sortBy dateBefore l

/-- The mask given, in the order the set is kept in; none where it names something else (R144). -/
def adoptMask (k : Keep (List (Named Weekday))) (present : List Weekday) : Option (List Weekday) :=
  match k with
  | .keep => some present
  | .to l => (allNamed l).map (fun m => Weekday.all.filter (m.contains ·))

/-- HOLIDAY WRITE (R144): the list is checked first, then the mask. -/
def doHolidayWrite (mask : Keep (List (Named Weekday))) (holidays : Keep (List Date)) (s : State) : State × Reply :=
  if holidaysFieldGood holidays then
    match adoptMask mask s.time.weekendMask with
    | none => refuse .badField s
    | some m =>
      let h := adoptHolidays holidays s.time.holidays
      done (.calendar m h) { s with time := { s.time with weekendMask := m, holidays := h } }
  else refuse .badField s

/-- HOLIDAY WRITE (R144). -/
def execHolidayWrite (tag : Tag) (mask : Keep (List (Named Weekday))) (holidays : Keep (List Date)) (s : State) :
    Out :=
  request (.holidayWrite tag mask holidays) 49 tag (doHolidayWrite mask holidays) s

/-! ### BAND SCHEDULE WRITE (R146) -/

/-- The time base with one day class's band list replaced. -/
def TimeBase.setBands (tb : TimeBase) (c : DayClass) (l : List BandEntry) : TimeBase :=
  match c with
  | .weekday => { tb with weekdayBands := l }
  | .weekend => { tb with weekendBands := l }
  | .holiday => { tb with holidayBands := l }

/-- BAND SCHEDULE WRITE (R146): no entries read the list. -/
def doBandScheduleWrite (dayClass : Named DayClass) (entries : List BandEntry) (s : State) : State × Reply :=
  match dayClass with
  | none => refuse .badField s
  | some c =>
    if bandsGood entries then
      if entries.isEmpty then done (.bands c (bandList s.time c)) s
      else
        done (.bands c (adoptBands entries)) { s with time := s.time.setBands c (adoptBands entries) }
    else refuse .badField s

/-- BAND SCHEDULE WRITE (R146). -/
def execBandScheduleWrite (tag : Tag) (dayClass : Named DayClass) (entries : List BandEntry) (s : State) : Out :=
  request (.bandScheduleWrite tag dayClass entries) 50 tag (doBandScheduleWrite dayClass entries) s

/-! ### Carrier agreements (R150, R151) -/

/-- CARRIER WRITE (R150). -/
def doCarrierWrite (carrier : Nat) (f : CarrierFields) (s : State) : State × Reply :=
  match f.adopt with
  | none => refuse .badField s
  | some a =>
    if carrier < Config.carrierCount then
      done (.carrier carrier a)
        { s with rate := { s.rate with carriers := Table.store s.rate.carriers carrier a Carrier.zero } }
    else refuse .badField s

/-- CARRIER WRITE (R150). -/
def execCarrierWrite (tag : Tag) (carrier : Nat) (f : CarrierFields) (s : State) : Out :=
  request (.carrierWrite tag carrier f) 51 tag (doCarrierWrite carrier f) s

/-- CARRIER READ (R151). -/
def doCarrierRead (carrier : Nat) (s : State) : State × Reply :=
  if carrier < Config.carrierCount then done (.carrier carrier (agreement s carrier)) s else refuse .badField s

/-- CARRIER READ (R151). -/
def execCarrierRead (tag : Tag) (carrier : Nat) (s : State) : Out :=
  request (.carrierRead tag carrier) 52 tag (doCarrierRead carrier) s

end Sys2Proof.Machine
end

