-- ==== Sys2Proof/Machine/Gaps.lean ====
section
/-! DEFINITION. The gap controller's shared operations: the applying entry, the gap check, interval changes, automatic
requests and removal (07). -/

namespace Sys2Proof.Machine

open Sys2Proof

/-- The slot and entry that hold exactly these digits (R125). -/
def gapOfDigits (s : State) (digits : List Nat) : Option (Nat × GapEntry) :=
  s.gap.slots.find? (fun e => e.2.digits == digits)

/-- The longer of two keys, the earlier slot where they are equally long. -/
def longerGap (best : Option (Nat × GapEntry)) (e : Nat × GapEntry) : Option (Nat × GapEntry) :=
  match best with
  | none => some e
  | some b => if b.2.digits.length < e.2.digits.length then some e else some b

/-- The applying entry: the one whose digits are the longest leading part of the called digits (R127). -/
def applyingGap (s : State) (called : List Nat) : Option (Nat × GapEntry) :=
  (s.gap.slots.filter (fun e => e.2.digits.isPrefixOf called)).foldl longerGap none

/-- The lowest-numbered free slot (R125). -/
def freeGapSlot (s : State) : Option Nat :=
  (List.range Config.gapSlots).find? (fun i => (Table.find s.gap.slots i).isNone)

/-- Write a gap entry. -/
def putGap (slot : Nat) (e : GapEntry) (s : State) : State :=
  { s with gap := { s.gap with slots := Table.put s.gap.slots slot e } }

/-- Remove an entry with its deadlines; its slot becomes free and it leaves the automatic list (R130, R135). -/
def removeGap (slot : Nat) (s : State) : State :=
  { s with gap := { slots := Table.del s.gap.slots slot, autoList := s.gap.autoList.erase slot } }

/-- Entries of one origin (R129, R131). -/
def countOrigin (o : GapOrigin) (s : State) : Nat := s.gap.slots.countP (fun e => e.2.origin == o)

/-- A call passes an OPEN entry and closes it (R126). -/
def GapEntry.pass (time : Nat) (e : GapEntry) : GapEntry :=
  { e with lastPass := some time, gapDeadline := some (time + e.interval) }

/-- The interval of an entry is changed: a CLOSED entry has its gap deadline set again from the last pass, and opens
where that instant has come (R126). -/
def GapEntry.withInterval (time interval : Nat) (e : GapEntry) : GapEntry :=
  match e.gapDeadline, e.lastPass with
  | some _, some p =>
    { e with interval := interval, gapDeadline := if p + interval ≤ time then none else some (p + interval) }
  | _, _ => { e with interval := interval }

/-- A new entry: OPEN, no last pass, created now, no call gapped (R129, R133). -/
def newGap (digits : List Nat) (interval : Nat) (origin : GapOrigin) (lifetime : Option Nat) (s : State) : GapEntry :=
  { digits := digits, interval := interval, origin := origin, lifetime := lifetime, lastPass := none,
    gapDeadline := none, createdCount := now s, createdWall := s.time.wall, gapped := 0 }

/-- The remaining lifetime in seconds, rounded up; none for PERMANENT (R125). -/
def remainingLifetime (time : Nat) (e : GapEntry) : Option Nat := e.lifetime.map (fun d => ceilDiv (remaining time d) 10)

/-- The gap check of a SETUP: class 0 and uncovered numbers pass, an OPEN entry passes and closes, a CLOSED entry refuses
and counts (R127). `true`: the call passes. -/
def gapCheck (prio : Nat) (called : List Nat) (s : State) : State × Bool :=
  if prio = 0 then (s, true)
  else
    match applyingGap s called with
    | none => (s, true)
    | some (slot, e) =>
      match e.gapDeadline with
      | none => (putGap slot (e.pass (now s)) s, true)
      | some _ => (putGap slot { e with gapped := satAdd Config.counterBound e.gapped 1 } s, false)

/-- The gap verdict of a TRIAL, which changes nothing (R136). -/
def gapVerdict (prio : Nat) (called : List Nat) (s : State) : GapVerdict :=
  if prio = 0 then .exempt
  else
    match applyingGap s called with
    | none => .noGap
    | some (slot, e) =>
      match e.gapDeadline with
      | none => .pass slot e.digits e.interval e.origin
      | some d => .gapped slot e.digits e.interval e.origin (remaining (now s) d)

/-- GAP CHANGE about the entry in a slot (R134). -/
def gapChange (kind : GapChangeKind) (slot : Nat) (e : GapEntry) (s : State) : State :=
  postNotice (.gapChange kind slot e.digits e.origin e.interval (remainingLifetime (now s) e)) s

/-- A renewal by an automatic request (R132): it never shortens what the operator wrote. -/
def GapEntry.renew (time interval lifetime : Nat) (e : GapEntry) : GapEntry :=
  match e.origin, e.lifetime with
  | .automatic, _ => { e.withInterval time interval with lifetime := some (time + lifetime * 10) }
  | .hostSet, some d => { e with lifetime := some (max d (time + lifetime * 10)) }
  | .hostSet, none => e

/-- A new AUTOMATIC entry in a slot, at the tail of the automatic list (R125, R133). -/
def createAuto (slot : Nat) (e : GapEntry) (s : State) : State :=
  let t := putGap slot e s
  { t with gap := { t.gap with autoList := t.gap.autoList ++ [slot] } }

/-- An automatic request for digits that no entry holds (R133): the lowest free slot, else the slot of the oldest
AUTOMATIC entry, else GAP TABLE FULL. -/
def createAutoGap (digits : List Nat) (interval lifetime : Nat) (s : State) : State :=
  let e := newGap digits interval .automatic (some (now s + lifetime * 10)) s
  match freeGapSlot s with
  | some slot => gapChange .created slot e (createAuto slot e s)
  | none =>
    match s.gap.autoList with
    | slot :: _ =>
      match Table.find s.gap.slots slot with
      | some old => gapChange (.replaced old.digits) slot e (createAuto slot e (removeGap slot s))
      | none => postNotice (.gapTableFull digits interval lifetime) s
    | [] => postNotice (.gapTableFull digits interval lifetime) s

/-- An automatic request from number analysis (R36, R132, R133). -/
def automaticGap (digits : List Nat) (interval lifetime : Nat) (s : State) : State :=
  match gapOfDigits s digits with
  | some (slot, e) =>
    let r := e.renew (now s) interval lifetime
    gapChange .renewed slot r (putGap slot r s)
  | none => createAutoGap digits interval lifetime s

/-- An entry as GAP READ shows it (R131). -/
def gapView (s : State) (slot : Nat) (e : GapEntry) : GapView :=
  { slot := slot, digits := e.digits, interval := e.interval, origin := e.origin,
    remaining := remainingLifetime (now s) e, opensIn := e.gapDeadline.map (remaining (now s)),
    sincePass := e.lastPass.map (fun p => now s - p), createdCount := e.createdCount, createdWall := e.createdWall,
    gapped := e.gapped, autoPlace := placeOf slot s.gap.autoList }

end Sys2Proof.Machine
end

