-- ==== Sys2Proof/Machine/Analysis.lean ====
section
/-! DEFINITION. Number analysis: the banks, the match and its order, and destination counting (02). -/

namespace Sys2Proof.Machine

open Sys2Proof

/-- The entries of a bank that are listed (R22). -/
def bankOf (n : Analysis) : BankId → Table NumberEntry
  | .a => n.bankA
  | .b => n.bankB

/-- The unit with one bank's entries replaced. -/
def Analysis.setBank (n : Analysis) (k : BankId) (t : Table NumberEntry) : Analysis :=
  match k with
  | .a => { n with bankA := t }
  | .b => { n with bankB := t }

end Sys2Proof.Machine

namespace Sys2Proof

/-- The other bank (R22). -/
def BankId.other : BankId → BankId
  | .a => .b
  | .b => .a

end Sys2Proof

namespace Sys2Proof.Machine

open Sys2Proof

/-- The entry at a place; an unlisted one is in its cleared form (R23). -/
def entryAt (s : State) (k : BankId) (i : Nat) : NumberEntry := Table.getD (bankOf s.num k) i NumberEntry.cleared

/-- Write an entry. -/
def putEntry (k : BankId) (i : Nat) (e : NumberEntry) (s : State) : State :=
  { s with num := s.num.setBank k (Table.store (bankOf s.num k) i e NumberEntry.cleared) }

/-- The enabled count of a bank: its entries whose key holds a digit (R22). -/
def enabledCount (t : Table NumberEntry) : Nat := t.countP (fun e => e.2.enabled)

/-- Two keys are identical (R24). -/
def sameKey (a b : NumberEntry) : Bool := a.origin == b.origin && a.numClass == b.numClass && a.digits == b.digits

/-- Some other index of the bank holds an enabled entry with this key (R24). -/
def keyConflict (t : Table NumberEntry) (i : Nat) (e : NumberEntry) : Bool :=
  t.any (fun f => f.1 != i && f.2.enabled && sameKey f.2 e)

end Sys2Proof.Machine

namespace Sys2Proof

/-- ANY, or a specific value. -/
def AnyOr.isSpecific {α : Type} : AnyOr α → Bool
  | .any => false
  | .is _ => true

/-- ANY matches every value, a specific one only itself (R25). -/
def AnyOr.matchesValue {α : Type} [BEq α] (k : AnyOr α) (v : α) : Bool :=
  match k with
  | .any => true
  | .is a => a == v

end Sys2Proof

namespace Sys2Proof.Machine

open Sys2Proof

/-- An entry matches a call (R25). -/
def NumberEntry.matchesCall (e : NumberEntry) (carrier : Nat) (cls : NumberClass) (called : List Nat) : Bool :=
  e.enabled && e.digits.isPrefixOf called && e.origin.matchesValue carrier && e.numClass.matchesValue cls

/-- Those that satisfy `p`, if any do; else all (the later tests of R26). -/
def preferring {α : Type} (p : α → Bool) (l : List α) : List α := if l.any p then l.filter p else l

/-- The greatest number of digits among entries. -/
def mostDigits (l : Table NumberEntry) : Nat := l.foldl (fun m e => max m e.2.digits.length) 0

/-- The winner among the matching entries: most digits, then a specific origin, then a specific class (R26). -/
def winner (t : Table NumberEntry) (carrier : Nat) (cls : NumberClass) (called : List Nat) :
    Option (Nat × NumberEntry) :=
  let m := t.filter (fun e => e.2.matchesCall carrier cls called)
  let longest := m.filter (fun e => e.2.digits.length == mostDigits m)
  (preferring (fun e => e.2.numClass.isSpecific)
    (preferring (fun e => e.2.origin.isSpecific) longest)).head?

/-- The analysis of a call against the active bank (R27). It changes nothing. -/
def analyse (s : State) (carrier : Nat) (cls : NumberClass) (called : List Nat) : AnalysisResult :=
  match winner (bankOf s.num s.num.active) carrier cls called with
  | none => .noMatch
  | some (i, e) =>
    match e.outcome with
    | .bar => .barred s.num.active i
    | .route l =>
      if (Table.find s.sel.routeLists l).isSome then .routed s.num.active i l
      else .undefinedList s.num.active i l

/-- The destination count of a context's matched place is offered an increment (R35): it is made while the entry is
enabled and the engine is RUNNING or held measurement is on. At the entry's threshold the count returns to 0 and an
automatic gap is requested (R36). -/
def offerDestination (matched : Option (BankId × Nat)) (s : State) : State :=
  match matched with
  | none => s
  | some (k, i) =>
    let e := entryAt s k i
    if e.enabled && windowsRunning s && e.count < Config.countBound then
      if e.threshold ≠ 0 ∧ e.count + 1 = e.threshold then
        automaticGap e.digits e.interval e.lifetime (putEntry k i { e with count := 0 } s)
      else putEntry k i { e with count := e.count + 1 } s
    else s

/-- Every destination crankback count of a bank is set to 0 (R37, R39). -/
def clearCounts (t : Table NumberEntry) : Table NumberEntry :=
  (t.map (fun e => (e.1, { e.2 with count := 0 }))).filter (fun e => e.2 != NumberEntry.cleared)

/-- Every destination crankback count of both banks is set to 0 (R37). -/
def clearAllCounts (s : State) : State :=
  { s with num := { s.num with bankA := clearCounts s.num.bankA, bankB := clearCounts s.num.bankB } }

end Sys2Proof.Machine
end

