-- ==== Sys2Proof/Machine/Circuits.lean ====
section
/-! DEFINITION. The circuit table's shared operations: seizing, marking, releasing and hunting circuits, with what they
hand to the congestion monitor (03; R110, R112). -/

namespace Sys2Proof.Machine

open Sys2Proof

/-! ### One circuit -/

/-- The name of a circuit's state (R45). -/
def Circuit.name : Circuit → CircuitState
  | .idle _ => .idle
  | .out .. => .out
  | .inc .. => .inc
  | .guard _ => .guard
  | .blocked => .blocked

/-- IDLE (R45). -/
def Circuit.isIdle : Circuit → Bool
  | .idle _ => true
  | _ => false

/-- OUT or IN: busy (R46). -/
def Circuit.isBusy : Circuit → Bool
  | .out .. => true
  | .inc .. => true
  | _ => false

/-- The block-pending mark (R45). -/
def Circuit.blockPending : Circuit → Bool
  | .out _ _ p => p
  | .inc _ _ p => p
  | _ => false

/-- The instant the present seizure began (R45). -/
def Circuit.seizedAt : Circuit → Option Nat
  | .out _ t _ => some t
  | .inc _ t _ => some t
  | _ => none

/-! ### One group -/

/-- The circuit count of a group (R40). -/
def CircuitGroup.count (gr : CircuitGroup) : Nat := gr.circuits.length

/-- The idle count (R46). -/
def CircuitGroup.idleCount (gr : CircuitGroup) : Nat := gr.idleList.length

/-- The busy count (R46), which the congestion monitor holds as last handed (R106, R110). -/
def CircuitGroup.busyCount (gr : CircuitGroup) : Nat := gr.circuits.countP (·.isBusy)

/-- The total circuit count of the part (R40). -/
def totalCircuits (s : State) : Nat := (s.groups.map (fun e => e.2.count)).sum

/-- Put a circuit in a state. -/
def CircuitGroup.setCircuit (c : Nat) (k : Circuit) (gr : CircuitGroup) : CircuitGroup :=
  { gr with circuits := gr.circuits.set c k }

/-- A circuit becomes IDLE and joins the tail of the idle list (R46). -/
def CircuitGroup.makeIdle (time c : Nat) (gr : CircuitGroup) : CircuitGroup :=
  { gr with circuits := gr.circuits.set c (.idle time), idleList := gr.idleList ++ [c] }

/-- A circuit takes a state other than IDLE and leaves the idle list wherever it stands (R46). -/
def CircuitGroup.takeFromIdle (c : Nat) (k : Circuit) (gr : CircuitGroup) : CircuitGroup :=
  { gr with circuits := gr.circuits.set c k, idleList := gr.idleList.erase c }

/-- An ended seizure is added to the group's window (R112). -/
def CircuitGroup.endSeizure (duration : Nat) (gr : CircuitGroup) : CircuitGroup :=
  { gr with meas := { gr.meas with
      released := satAdd Config.counterBound gr.meas.released 1,
      holdTime := satAdd Config.holdTimeBound gr.meas.holdTime duration } }

/-- The numbers of the IDLE circuits in ascending order: the idle list as definition and warm restart rebuild it (R42,
R62). -/
def idleNumbers (l : List Circuit) : List Nat :=
  (List.range l.length).filter (fun c => match l[c]? with | some k => k.isIdle | none => false)

/-! ### Hunting (R53 to R57) -/

/-- A circuit number has the group's controlled parity (R48, R56). -/
def controlled (p : Parity) (c : Nat) : Bool :=
  match p with
  | .even => c % 2 == 0
  | .odd => c % 2 == 1
  | .none => false

/-- The order in which a hunt examines the circuits of a group (R53, R54, R55). -/
def CircuitGroup.huntOrder (gr : CircuitGroup) : List Nat :=
  match gr.record.hunting with
  | .ascending => List.range gr.count
  | .descending => (List.range gr.count).reverse
  | .rotate => (List.range gr.count).map (fun k => (gr.rotate + 1 + k) % gr.count)
  | .longestIdle => gr.idleList

/-- The circuit under a number is IDLE. -/
def CircuitGroup.idleAt (gr : CircuitGroup) (c : Nat) : Bool :=
  match gr.circuits[c]? with
  | some k => k.isIdle
  | none => false

/-- The circuit a hunt would take: the first IDLE one in hunting order, on a BOTHWAY group the controlled circuits first
(R53 to R57). -/
def CircuitGroup.pick (gr : CircuitGroup) : Option Nat :=
  if gr.record.direction = .bothway then
    match gr.huntOrder.find? (fun c => gr.idleAt c && controlled gr.record.parity c) with
    | some c => some c
    | none => gr.huntOrder.find? gr.idleAt
  else gr.huntOrder.find? gr.idleAt

/-- Seize a circuit outgoing for a context's reference; under ROTATE the pointer moves to it (R53, R54). -/
def CircuitGroup.seize (time ref c : Nat) (gr : CircuitGroup) : CircuitGroup :=
  { gr.takeFromIdle c (.out ref time false) with
    rotate := if gr.record.hunting = .rotate then c else gr.rotate }

/-- A hunt in a group for a context: it seizes and counts, or reports none (R53). -/
def hunt (g ref : Nat) (s : State) : State × Option Nat :=
  match groupAt s g with
  | none => (s, none)
  | some gr =>
    match gr.pick with
    | none => (s, none)
    | some c => (raiseCounter g .seizures (modifyGroup g (·.seize (now s) ref c) s), some c)

/-! ### Incoming marks (R47, R48) -/

/-- What an incoming mark comes to. -/
inductive MarkResult where
  | refused (cause : Cause)
  | granted
  /-- granted against an OUT circuit: the context of this index has lost it -/
  | lost (context : Nat)
  deriving DecidableEq, Repr

/-- The granted mark on a circuit that was IDLE or in GUARD (R47). -/
def grantMark (g c ref : Nat) (s : State) : State :=
  raiseCounter g .incoming (modifyGroup g (·.takeFromIdle c (.inc ref (now s) false)) s)

/-- The far end wins an OUT circuit: the seizure ends, the circuit becomes IN with its block-pending mark kept, and the
incoming seizures and glares lost counters rise (R48). -/
def grantGlare (g c ref seized : Nat) (pending : Bool) (s : State) : State :=
  raiseCounter g .glaresLost (raiseCounter g .incoming
    (modifyGroup g (fun gr => (gr.endSeizure (now s - seized)).setCircuit c (.inc ref (now s) pending)) s))

/-- The collision on an OUT circuit, decided by its holder's state and the controlled parity (R48). -/
def markCollision (g c ref holder seized : Nat) (pending : Bool) (parity : Parity) (s : State) :
    State × MarkResult :=
  match contextOfRef s holder with
  | some (x, ctx) =>
    if ctx.state = .routed then
      if controlled parity c then (raiseCounter g .glaresWon s, .refused .glareYield)
      else (grantGlare g c ref seized pending s, .lost x)
    else (s, .refused .badCircuit)
  | none => (s, .refused .badCircuit)

/-- The incoming mark of a SETUP: the tests of R47 in order. -/
def markIncoming (g c ref : Nat) (s : State) : State × MarkResult :=
  match groupAt s g with
  | none => (s, .refused .badCircuit)
  | some gr =>
    match gr.circuits[c]? with
    | none => (s, .refused .badCircuit)
    | some k =>
      if gr.record.direction = .outgoing then (s, .refused .badCircuit)
      else if gr.record.service = .outOfService then (s, .refused .badCircuit)
      else
        match k with
        | .inc .. => (s, .refused .badCircuit)
        | .blocked => (s, .refused .badCircuit)
        | .out holder seized pending => markCollision g c ref holder seized pending gr.record.parity s
        | .idle _ => (grantMark g c ref s, .granted)
        | .guard _ => (grantMark g c ref s, .granted)

/-! ### Release (R49) -/

/-- The state a released circuit takes (R49). -/
def CircuitGroup.afterRelease (time c : Nat) (fault pending : Bool) (gr : CircuitGroup) : CircuitGroup :=
  if fault || pending then gr.setCircuit c .blocked
  else if 0 < gr.record.guard then gr.setCircuit c (.guard (time + gr.record.guard))
  else gr.makeIdle time c

/-- A release of a circuit that is OUT or IN: the seizure ends and is handed to the monitor, and the circuit goes to
BLOCKED, GUARD or IDLE; a fault release sends CIRCUIT AUTO-BLOCKED (R49). -/
def releaseCircuit (g c : Nat) (fault : Bool) (ref : Nat) (s : State) : State :=
  match groupAt s g with
  | none => s
  | some gr =>
    match gr.circuits[c]? with
    | none => s
    | some k =>
      match k.seizedAt with
      | none => s
      | some t =>
        let u := modifyGroup g
          (fun gr => (gr.endSeizure (now s - t)).afterRelease (now s) c fault k.blockPending) s
        if fault then postNotice (.circuitAutoBlocked g c ref) u else u

end Sys2Proof.Machine
end

