-- ==== Sys2Proof/Machine/Engine.lean ====
section
/-! DEFINITION. The engine supervisor's shared operations: changes of engine state, the passage to HELD, table faults and
the held queue (10). -/

namespace Sys2Proof.Machine

open Sys2Proof

/-- A change of engine state or hold reason: ENGINE STATE is produced, then "engine not running" is re-evaluated; the
stepped context is present only in STEPPING (R174). A state and reason as they stand change nothing. -/
def setEngine (state : EngineState) (reason : HoldReason) (s : State) : State :=
  if state = s.eng.state ∧ reason = s.eng.reason then s
  else
    let t := { s with eng := { s.eng with
      state := state, reason := reason, stepped := if state = .stepping then s.eng.stepped else none } }
    recheck .engineNotRunning
      (postNotice (.engineState s.eng.state state s.eng.reason reason (routedCount t) t.eng.held.length) t)

/-- The context of a reference is in ROUTED. -/
def refRouted (s : State) (ref : Nat) : Bool :=
  match contextOfRef s ref with
  | some (_, c) => c.state == .routed
  | none => false

/-- A context has left ROUTED: a HOLDING engine with none left passes to HELD (R177), and a STEPPING engine whose
stepped context is no longer ROUTED returns to HELD, each with the reason it had (R183). -/
def engineCheck (s : State) : State :=
  match s.eng.state with
  | .holding => if routedCount s = 0 then setEngine .held s.eng.reason s else s
  | .stepping =>
    match s.eng.stepped with
    | some ref => if refRouted s ref then s else setEngine .held s.eng.reason s
    | none => setEngine .held s.eng.reason s
  | .running => s
  | .held => s

/-- The engine after an escalated fault (R185). -/
def escalate (s : State) : State :=
  if s.eng.state = .running then
    setEngine (if routedCount s = 0 then .held else .holding) .tableFault s
  else setEngine s.eng.state .tableFault s

/-- A table fault handed to the supervisor: latched where the slot is empty, else counted and escalated (R185). -/
def handFault (f : TableFault) (s : State) : State :=
  match s.eng.fault with
  | none =>
    let l : LatchedFault := ⟨f, now s⟩
    recheck .faultLatched (postNotice (.tableFault l) { s with eng := { s.eng with fault := some l } })
  | some _ =>
    escalate { s with eng := { s.eng with faultCount := satAdd Config.countBound s.eng.faultCount 1 } }

/-! ### The held queue (R180) -/

/-- Service order: the lower class first, and within a class the earlier arrival (R180). -/
def servedBefore (a b : HeldEntry) : Bool := a.prio < b.prio || (a.prio == b.prio && a.arrival < b.arrival)

/-- The entry first in service order; among equals the one offered first (R180). -/
def firstServed : List HeldEntry → Option HeldEntry
  | [] => none
  | e :: t =>
    match firstServed t with
    | none => some e
    | some f => if servedBefore f e then some f else some e

/-- The entry of a reference leaves the held queue; those behind it keep their order (R180). -/
def leaveHeld (ref : Nat) (s : State) : State :=
  { s with eng := { s.eng with held := s.eng.held.filter (fun e => e.ref != ref) } }

/-- A context enters the held queue and QUEUED with its hold-wait deadline (R175, R180). -/
def enterHeld (i : Nat) (prio : Nat) (s : State) : State :=
  let d := now s + s.eng.holdWait
  modifyContext i (fun c => { c with state := .queued, holdDeadline := some d })
    { s with eng := { s.eng with held := s.eng.held ++ [⟨refOf s i, prio, now s, d⟩] } }

/-- The supervisor lets a selection of this reference run at once (R175). The state is read when this stage of the
event is reached (log 12). -/
def letsRun (s : State) (ref : Nat) : Bool :=
  s.eng.state == .running || (s.eng.state == .stepping && s.eng.stepped == some ref)

end Sys2Proof.Machine
end

