-- ==== Sys2Proof/Machine/Selection.lean ====
section
/-! DEFINITION. Route selection: the verdict of each candidate, the policies, the end of a selection (04). -/

namespace Sys2Proof.Machine

open Sys2Proof

/-! ### Admissibility (R70 to R74) -/

/-- The reservation that the capacity test applies: none at position 0 or for class 0, else the group's figure for its
adopted level (R72; log 16). -/
def appliedReservation (gr : CircuitGroup) (position prio : Nat) : Nat :=
  if position = 0 ∨ prio = 0 then 0 else gr.record.reservations.at gr.meas.adopted

/-- The capacity test (R72): more idle circuits than the reservation applied, so at least one. -/
def hasCapacity (gr : CircuitGroup) (position prio : Nat) : Bool :=
  appliedReservation gr position prio < gr.idleCount

/-- The validity test: the fault kind of a group that cannot be a choice (R70). -/
def groupFault (gr : CircuitGroup) : Option FaultKind :=
  if gr.record.direction = .incoming then some .incomingGroupInList
  else if gr.count = 0 then some .emptyGroup
  else none

/-- The margin guard refuses: a class 1 to 3 call, a limited ceiling, a margin below its negative (R73). -/
def guardRefuses (prio : Nat) (ceiling : BitVec 16) (margin : Int) : Bool :=
  prio ≠ 0 && ceiling.toNat ≠ Config.unlimitedCeiling && margin < -(ceiling.toNat : Int)

/-- The verdict of one candidate: validity, service, capacity and margin guard in turn (R69 to R73). It reads state and
changes none (log 30). -/
def verdictOf (s : State) (ceiling : BitVec 16) (inCarrier prio position group : Nat) : Verdict :=
  match groupAt s group with
  | none => .fault .undefinedGroup
  | some gr =>
    match groupFault gr with
    | some k => .fault k
    | none =>
      if gr.record.service ≠ .inService then .notInService gr.record.service
      else if !hasCapacity gr position prio then
        .noCapacity gr.idleCount gr.meas.adopted (appliedReservation gr position prio)
      else
        let e := marginEstimate s inCarrier gr.record.carrier position
        if guardRefuses prio ceiling e.2 then .uneconomic e.1 e.2 ceiling.toNat
        else .admissible gr.idleCount gr.meas.adopted (appliedReservation gr position prio) e.1 e.2

/-- The candidate is admissible. -/
def Candidate.isAdmissible (c : Candidate) : Bool :=
  match c.verdict with
  | .admissible .. => true
  | _ => false

/-- The candidate met a table fault. -/
def Candidate.isFault (c : Candidate) : Bool :=
  match c.verdict with
  | .fault _ => true
  | _ => false

/-- The candidate failed on capacity. -/
def Candidate.isFull (c : Candidate) : Bool :=
  match c.verdict with
  | .noCapacity .. => true
  | _ => false

/-- The candidate failed the margin guard. -/
def Candidate.isUneconomic (c : Candidate) : Bool :=
  match c.verdict with
  | .uneconomic .. => true
  | _ => false

/-- The payable estimate of an admissible candidate (R77). -/
def Candidate.estimate (c : Candidate) : Nat :=
  match c.verdict with
  | .admissible _ _ _ e _ => e
  | _ => 0

/-- The verdicts of the positions whose group is not among those tried, in ascending position order (R69). -/
def candidates (s : State) (rl : RouteList) (inCarrier prio : Nat) (tried : List Nat) : List Candidate :=
  (rl.choices.zipIdx.filter (fun e => !tried.contains e.1)).map
    (fun e => ⟨e.2, e.1, verdictOf s rl.ceiling inCarrier prio e.2 e.1⟩)

/-! ### Policies and causes (R76, R77, R79) -/

/-- The candidates a policy evaluates: SEQUENTIAL stops at the first admissible one, both stop at a table fault (R70,
R76, R77). -/
def evaluated (p : Policy) (l : List Candidate) : List Candidate :=
  match p with
  | .sequential => takeThrough (fun c : Candidate => c.isAdmissible || c.isFault) l
  | .cheapest => takeThrough Candidate.isFault l

/-- The admissible candidate with the lowest payable estimate, the lowest position where they tie (R77). -/
def cheapest : List Candidate → Option Candidate
  | [] => none
  | c :: t =>
    match cheapest t with
    | none => some c
    | some d => if d.estimate < c.estimate then some d else some c

/-- The cause of a selection that found no admissible candidate (R79). -/
def causeOf (l : List Candidate) : Cause :=
  if l.any Candidate.isUneconomic && !l.any Candidate.isFull then .uneconomic else .congested

/-- What the evaluated candidates come to (R76, R77, R79, R80). -/
def outcomeOf (p : Policy) (l : List Candidate) : SelectionOutcome :=
  match l.find? Candidate.isFault with
  | some c =>
    match c.verdict with
    | .fault k => .fault c.position c.group k
    | _ => .none (causeOf l)
  | none =>
    let best := match p with
      | .sequential => l.find? Candidate.isAdmissible
      | .cheapest => cheapest (l.filter Candidate.isAdmissible)
    match best with
    | some c => .chosen c.position c.group
    | none => .none (causeOf l)

/-- The bid of one evaluated candidate, and its overflow where it failed on capacity (R75). -/
def countBid (c : Candidate) (s : State) : State :=
  if c.isFault then s
  else if c.isFull then raiseCounter c.group .overflows (raiseCounter c.group .bids s)
  else raiseCounter c.group .bids s

/-- The bids and overflows of the evaluated candidates, in order (R75). -/
def countBids (l : List Candidate) (s : State) : State := l.foldl (fun t c => countBid c t) s

/-! ### The end of a selection (R78 to R80) -/

/-- What a selection, or a request for one, comes to. -/
inductive SelectResult where
  | seized (group circuit position attempt : Nat)
  | queued
  | failed (cause : Cause)
  deriving DecidableEq, Repr

/-- A seizure enters the context: a new attempt record, the attempt timer, ROUTED (R12, R78). -/
def Context.addAttempt (group position circuit deadline : Nat) (c : Context) : Context :=
  { c with
    attempts := c.attempts ++ [⟨group, position, circuit, 0, .inProgress⟩],
    attemptDeadline := some deadline, holdDeadline := none, state := .routed }

/-- The candidate taken is hunted and seized for the context (R78). -/
def seizeFor (i : Nat) (c : Context) (group position : Nat) (s : State) : State × SelectResult :=
  match hunt group (refOf s i) s with
  | (t, some k) =>
    (modifyContext i (Context.addAttempt group position k (now s + s.sel.attemptTimeout)) t,
      .seized group k position (c.attempts.length + 1))
  | (t, none) => (t, .failed .congested)

/-- A selection for the context of index `i` (R68, R69): its table faults are handed over, its bids counted, and it ends
in a seizure or a cause. -/
def runSelection (i : Nat) (c : Context) (s : State) : State × SelectResult :=
  let list := c.routeList.getD 0
  match Table.find s.sel.routeLists list with
  | none => (handFault ⟨.undefinedRouteList, .routeList list, refOf s i⟩ s, .failed .tableFault)
  | some rl =>
    let all := candidates s rl c.inCarrier c.prio (c.attempts.map (·.group))
    if all.isEmpty then (s, .failed .routesExhausted)
    else
      let l := evaluated rl.policy all
      let t := countBids l s
      match outcomeOf rl.policy l with
      | .chosen position group => seizeFor i c group position t
      | .fault position group kind =>
        (handFault ⟨kind, .choice list position group, refOf s i⟩ t, .failed .tableFault)
      | .none cause => (t, .failed cause)

/-- The attempt-limit test fails: the list holds the crankback limit plus 1 records (R67). -/
def attemptsUsed (s : State) (c : Context) : Bool := s.sel.crankbackLimit + 1 ≤ c.attempts.length

/-- A selection is asked for the context (R67, R90): the attempt-limit test, then the engine supervisor, which lets it
run, queues the context, or fails it ENGINE HELD (R175). A context that queues leaves ROUTED (R89). -/
def requestSelection (i : Nat) (s : State) : State × SelectResult :=
  match contextAt s i with
  | none => (s, .failed .routesExhausted)
  | some c =>
    if attemptsUsed s c then (s, .failed .routesExhausted)
    else if letsRun s (refOf s i) then runSelection i c s
    else if s.eng.held.length < Config.heldPlaces then (engineCheck (enterHeld i c.prio s), .queued)
    else (s, .failed .engineHeld)

end Sys2Proof.Machine
end

