-- ==== Sys2Proof/Machine/Calls.lean ====
section
/-! DEFINITION. Calls: freeing, the ends of attempts, glare, reselection and its delivery (01, 05), and the meanings of
SETUP, PROCEED, ANSWER, CRANKBACK, RELEASE, READ CONTEXT and the attempt timer's expiry. -/

namespace Sys2Proof.Machine

open Sys2Proof

/-! ### Freeing (R16) -/

/-- The context joins the tail of the free list, unless it still holds a pending call report (R2, R17); "contexts in
reserve" is re-evaluated (R6). -/
def joinFree (i : Nat) (s : State) : State :=
  if s.ctx.reports.any (fun e => e.1 == i) then s
  else recheck .contextsInReserve { s with ctx := { s.ctx with freeList := s.ctx.freeList ++ [i] } }

/-- The circuits a context holds are released; a CLOSING context holds none (R15, R16). DEDUCED (log 34): the outgoing one
first; no rule states the order. -/
def releaseCircuits (i : Nat) (c : Context) (s : State) : State :=
  let t := match c.outgoing with
    | some (g, k) => releaseCircuit g k false (refOf s i) s
    | none => s
  if c.state = .closing then t else releaseCircuit c.inGroup c.inCircuit false (refOf s i) t

/-- The context loses its state: it is no longer in use, and the engine supervisor and the condition "records pending"
follow the counts (R16, R19, R89). -/
def dropContext (i : Nat) (s : State) : State :=
  recheck .recordsPending (engineCheck
    { s with ctx := { s.ctx with
        contexts := Table.del s.ctx.contexts i, closing := s.ctx.closing.erase i } })

/-- Freeing a context (R16). A failure that answers no request is reported by CALL FAILED, produced before the context
loses its state (R13, R17, log 11). -/
def freeContext (i : Nat) (report : Option Cause) (s : State) : State :=
  match contextAt s i with
  | none => s
  | some c =>
    let t := releaseCircuits i c (leaveHeld (refOf s i) s)
    let u := match report with
      | some cause => callReport i (.callFailed (refOf s i) cause) t
      | none => t
    joinFree i (dropContext i u)

/-! ### Reselection and its delivery (R90) -/

/-- A selection is asked for and its result answers the request: ROUTE, QUEUED, or REFUSE with the context freed (R8,
R11, R90). -/
def selectAndReply (i : Nat) (s : State) : State × Reply :=
  match requestSelection i s with
  | (t, .seized g k p n) => (t, .route (refOf s i) g k p n)
  | (t, .queued) => (t, .queued (refOf s i))
  | (t, .failed cause) => (freeContext i none t, .refuse cause .none)

/-- A selection is asked for and its result goes out as a call report; a queued one sends nothing now (R13, R90). -/
def selectAndReport (i : Nat) (reason : ReportReason) (s : State) : State :=
  match requestSelection i s with
  | (t, .seized g k _ _) => callReport i (.routeReport (refOf s i) reason g k) t
  | (t, .queued) => t
  | (t, .failed cause) => freeContext i (some cause) t

/-! ### The ends of an attempt (R87, R88) -/

/-- The newest attempt record takes its outcome and the attempt timer is cancelled (R88, steps 1 and 2). -/
def Context.closeAttempt (out : AttemptOutcome) (c : Context) : Context :=
  { c with attemptDeadline := none, attempts := modifyLast (fun a => { a with outcome := out }) c.attempts }

/-- The outcome is offered to destination counting: CONGESTION and TIMED OUT (R87, R88 step 5). -/
def AttemptOutcome.counts : AttemptOutcome → Bool
  | .crankedBack .congestion => true
  | .timedOut => true
  | _ => false

/-- Steps 1 to 5 of R88 for a crankback or an expiry: outcome, release of the circuit (a fault release for CIRCUIT FAULT),
crankbacks counter, destination count. -/
def endAttempt (i : Nat) (c : Context) (out : AttemptOutcome) (s : State) : State :=
  let t := modifyContext i (Context.closeAttempt out) s
  match c.outgoing with
  | none => t
  | some (g, k) =>
    let u := raiseCounter g .crankbacks (releaseCircuit g k (out == .crankedBack .circuitFault) (refOf s i) t)
    if out.counts then offerDestination c.matched u else u

/-! ### Glare (R92 to R94) -/

/-- The newest record's glare re-hunt count rises, up to 255 (R92). -/
def Context.countGlare (c : Context) : Context :=
  { c with attempts := modifyLast (fun a => { a with glares := satAdd Config.glareBound a.glares 1 }) c.attempts }

/-- The re-hunt found a circuit: it becomes the record's current circuit and the timer is restarted (R93). -/
def Context.rehunted (circuit deadline : Nat) (c : Context) : Context :=
  { c with attempts := modifyLast (fun a => { a with circuit := circuit }) c.attempts,
           attemptDeadline := some deadline }

/-- The group of a lost attempt passes the service and capacity tests of a re-hunt (R81, R82). -/
def rehuntAllowed (gr : CircuitGroup) (position prio : Nat) : Bool :=
  gr.record.service == .inService && hasCapacity gr position prio

/-- The hunt of a re-hunt, where its tests pass (R81). -/
def rehunt (i : Nat) (c : Context) (a : Attempt) (s : State) : State × Option Nat :=
  match groupAt s a.group with
  | none => (s, none)
  | some gr => if rehuntAllowed gr a.position c.prio then hunt a.group (refOf s i) s else (s, none)

/-- A context in ROUTED has lost its outgoing circuit to the far end: the re-hunt in the same group, and where it finds
nothing the end of the attempt and the reselection (R92 to R94). -/
def loseGlare (i : Nat) (s : State) : State :=
  match contextAt s i with
  | none => s
  | some c =>
    match c.newest with
    | none => s
    | some a =>
      let t := modifyContext i Context.countGlare s
      match rehunt i c a t with
      | (u, some k) =>
        callReport i (.routeReport (refOf s i) .glare a.group k)
          (modifyContext i (Context.rehunted k (now s + s.sel.attemptTimeout)) u)
      | (u, none) => selectAndReport i .glare (modifyContext i (Context.closeAttempt .crankedBackGlare) u)

/-! ### SETUP (R5, R7, R8) -/

/-- Admission by priority class and free count (R5). -/
def admits (s : State) (prio : Nat) : Bool :=
  match prio with
  | 0 => 1 ≤ freeCount s
  | 1 => 1 ≤ freeCount s
  | 2 => s.ctx.ordinaryReserve < freeCount s
  | _ => s.ctx.bulkReserve < freeCount s

/-- A SETUP's fields after the field check (R7, step 1). -/
structure SetupCall where
  callId : CallId
  group : Nat
  circuit : Nat
  numClass : NumberClass
  prio : Nat
  digits : List Nat
  deriving DecidableEq, Repr

/-- The field check of a SETUP (R7, step 1). -/
def setupFields (callId : CallId) (group circuit : BitVec 16) (numClass prio : Byte) (digits : List Byte) :
    Option SetupCall :=
  match numberClassOf numClass with
  | some cls =>
    if group.toNat < Config.groupCount && circuit.toNat < Config.groupCircuits && prio.toNat ≤ 3
        && digitsGood 1 20 (digits.map (·.toNat)) then
      some ⟨callId, group.toNat, circuit.toNat, cls, prio.toNat, digits.map (·.toNat)⟩
    else none
  | none => none

/-- The generation a context takes at its next allocation (R2). -/
def nextGeneration (s : State) (i : Nat) : Nat := (generation s i + 1) % Config.generationCount

/-- The call reference a context takes at its next allocation (R2), under which its mark is granted (log 13). -/
def nextRef (s : State) (i : Nat) : Nat := i * Config.generationCount + nextGeneration s i

/-- A context as it is allocated (R1). The state holds QUEUED until a later stage of the same event sets it (log 14). -/
def newContext (call : SetupCall) (carrier : Nat) : Context :=
  { callId := call.callId, prio := call.prio, inGroup := call.group, inCircuit := call.circuit, inCarrier := carrier,
    numClass := call.numClass, digits := call.digits, matched := none, routeList := none, attempts := [],
    state := .queued, attemptDeadline := none, holdDeadline := none, answerCount := none, answerWall := none,
    timeStep := false, restart := false, pendingRecord := none }

/-- Allocation: the designated context leaves the free list, its generation rises, its fields are set (R7, step 4). -/
def allocate (i : Nat) (call : SetupCall) (s : State) : State :=
  recheck .contextsInReserve
    { s with ctx := { s.ctx with
        contexts := Table.put s.ctx.contexts i (newContext call (groupCarrier s call.group)),
        generations := Table.store s.ctx.generations i (nextGeneration s i) 0,
        freeList := s.ctx.freeList.erase i } }

/-- A SETUP refused after allocation: its context is freed (R8). -/
def refuseSetup (i : Nat) (cause : Cause) (s : State) : State × Reply :=
  (freeContext i none s, .refuse cause .none)

/-- The stages after allocation: analysis, gap check, then the engine supervisor and selection (R8, R27, R28, R127). -/
def setupStages (i : Nat) (call : SetupCall) (s : State) : State × Reply :=
  match analyse s (groupCarrier s call.group) call.numClass call.digits with
  | .noMatch => refuseSetup i .noMatch s
  | .barred _ _ => refuseSetup i .barred s
  | .undefinedList bank index list =>
    refuseSetup i .tableFault (handFault ⟨.undefinedRouteList, .bank bank index list, refOf s i⟩ s)
  | .routed bank index list =>
    match gapCheck call.prio call.digits
        (modifyContext i (fun c => { c with matched := some (bank, index), routeList := some list }) s) with
    | (t, true) => selectAndReply i t
    | (t, false) => refuseSetup i .gapped t

/-- A SETUP whose mark is granted: the loss of a glare is handled first, then allocation and the later stages (R7, R8,
R95). -/
def admitSetup (i : Nat) (call : SetupCall) (mark : MarkResult) (s : State) : State × Reply :=
  match mark with
  | .refused cause => refuse cause s
  | .granted => setupStages i call (allocate i call s)
  | .lost x => setupStages i call (allocate i call (loseGlare x s))

/-- A SETUP is taken (R7). -/
def doSetup (callId : CallId) (group circuit : BitVec 16) (numClass prio : Byte) (digits : List Byte) (s : State) :
    State × Reply :=
  match setupFields callId group circuit numClass prio digits with
  | none => refuse .badField s
  | some call =>
    if admits s call.prio then
      match s.ctx.freeList with
      | [] => refuse .noContext s
      | i :: _ =>
        let m := markIncoming call.group call.circuit (nextRef s i) s
        admitSetup i call m.2 m.1
    else refuse .noContext s

/-- SETUP (R7, R8). Its frame has a layout, so its body is compared with the frame at the head of the buffer and tested
for its length (R192). -/
def execSetup (tag : Tag) (callId : CallId) (group circuit : BitVec 16) (numClass prio : Byte) (digits : List Byte)
    (s : State) : Out :=
  let f := setupFrame tag callId group circuit numClass prio digits
  .next (serve (· == f) f (frameFault f) (doSetup callId group circuit numClass prio digits) s)

/-! ### Requests about a call (R3, R9 to R18) -/

/-- A circuit named by a request lies in range (R3). -/
def circuitInRange (group circuit : Nat) : Bool := group < Config.groupCount && circuit < Config.groupCircuits

/-- The second check of R3: the context that the reference names, or UNKNOWN CALL. -/
def onCall (ref : CallRef) (act : Nat → Context → State → State × Reply) (s : State) : State × Reply :=
  match contextOfRef s ref.toNat with
  | none => refuse .unknownCall s
  | some (i, c) => act i c s

/-- The third and fourth checks of R3 for PROCEED and CRANKBACK: the context is ROUTED and holds the circuit named
(R103). -/
def onCurrentCircuit (ref : CallRef) (group circuit : Nat) (act : Nat → Context → State → State × Reply) (s : State) :
    State × Reply :=
  onCall ref (fun i c t =>
    if c.state ≠ .routed then refuse .wrongState t
    else if c.outgoing ≠ some (group, circuit) then (t, .refuse .staleAttempt (.current ref.toNat c.outgoing))
    else act i c t) s

/-- PROCEED (R9). -/
def doProceed (ref : CallRef) (group circuit : Nat) (s : State) : State × Reply :=
  if circuitInRange group circuit then
    onCurrentCircuit ref group circuit (fun i _ t =>
      done .plain (engineCheck (modifyContext i
        (fun c => { c.closeAttempt .proceeded with state := .alerting }) t))) s
  else refuse .badField s

/-- PROCEED (R9). -/
def execProceed (tag : Tag) (ref : CallRef) (group circuit : Nat) (s : State) : Out :=
  request (.proceed tag ref group circuit) 2 tag (doProceed ref group circuit) s

/-- A context enters ANSWERED with its answer instants (R10). -/
def Context.answer (count : Nat) (wall : Wall) (c : Context) : Context :=
  { c.closeAttempt .proceeded with state := .answered, answerCount := some count, answerWall := some wall }

/-- ANSWER (R10). In ALERTING the newest attempt is PROCEEDED and no timer runs already. -/
def doAnswer (ref : CallRef) (s : State) : State × Reply :=
  onCall ref (fun i c t =>
    match c.state with
    | .routed => done .plain (engineCheck (modifyContext i (Context.answer (now t) t.time.wall) t))
    | .alerting => done .plain (engineCheck (modifyContext i (Context.answer (now t) t.time.wall) t))
    | .queued => refuse .wrongState t
    | .answered => refuse .wrongState t
    | .closing => refuse .wrongState t) s

/-- ANSWER (R10). -/
def execAnswer (tag : Tag) (ref : CallRef) (s : State) : Out := request (.answer tag ref) 3 tag (doAnswer ref) s

/-- CRANKBACK with a cause the call controller may give, taken (R11, R88, R97 to R100). -/
def takeCrankback (cause : CrankCause) (i : Nat) (c : Context) (s : State) : State × Reply :=
  let t := endAttempt i c (.crankedBack cause) s
  match cause with
  | .unroutable => (freeContext i none t, .refuse .routeEnd .none)
  | .congestion => selectAndReply i t
  | .circuitFault => selectAndReply i t

/-- CRANKBACK (R3, R11). -/
def doCrankback (ref : CallRef) (group circuit : Nat) (cause : Named CrankCause) (s : State) : State × Reply :=
  match cause with
  | none => refuse .badField s
  | some k =>
    if circuitInRange group circuit then onCurrentCircuit ref group circuit (takeCrankback k) s
    else refuse .badField s

/-- CRANKBACK (R11). -/
def execCrankback (tag : Tag) (ref : CallRef) (group circuit : Nat) (cause : Named CrankCause) (s : State) : Out :=
  request (.crankback tag ref group circuit cause) 4 tag (doCrankback ref group circuit cause) s

/-- The context enters CLOSING with its record, holds no circuit, and joins the tail of the CLOSING list (R15, R167). -/
def enterClosing (i : Nat) (c : Context) (r : RecordBody) (s : State) : State :=
  let t := modifyContext i (fun c => { c with state := .closing, pendingRecord := some r }) (releaseCircuits i c s)
  recheck .recordsPending { t with ctx := { t.ctx with closing := t.ctx.closing ++ [i] } }

/-- A completed rating is placed: in the queue with the context freed, or in the context, which enters CLOSING (R15,
R167). -/
def placeRecord (i : Nat) (c : Context) (r : RecordBody) (s : State) : State :=
  if 0 < settlementRoom s then freeContext i none (enterRecord r s) else enterClosing i c r s

/-- RELEASE (R14, R15). -/
def doRelease (ref : CallRef) (s : State) : State × Reply :=
  onCall ref (fun i c t =>
    match c.state with
    | .queued => done .plain (freeContext i none t)
    | .routed => done .plain (freeContext i none t)
    | .alerting => done .plain (freeContext i none t)
    | .answered => done .plain (placeRecord i c (rateContext t c) t)
    | .closing => refuse .wrongState t) s

/-- RELEASE (R14, R15). -/
def execRelease (tag : Tag) (ref : CallRef) (s : State) : Out := request (.release tag ref) 5 tag (doRelease ref) s

/-- The fields READ CONTEXT shows (R18). -/
def contextView (s : State) (i : Nat) (c : Context) : ContextView :=
  { ref := refOf s i, callId := c.callId, prio := c.prio, inGroup := c.inGroup, inCircuit := c.inCircuit,
    inCarrier := c.inCarrier, numClass := c.numClass, digits := c.digits, matched := c.matched,
    routeList := c.routeList, state := c.state, attempts := c.attempts,
    attemptRemaining := c.attemptDeadline.map (remaining (now s)),
    holdRemaining := c.holdDeadline.map (remaining (now s)), answerCount := c.answerCount, answerWall := c.answerWall,
    timeStep := c.timeStep, restart := c.restart,
    closingPlace := if c.state = .closing then placeOf i s.ctx.closing else none }

/-- READ CONTEXT (R18). -/
def doReadContext (ref : CallRef) (s : State) : State × Reply :=
  onCall ref (fun i c t => done (.context (contextView t i c)) t) s

/-- READ CONTEXT (R18). -/
def execReadContext (tag : Tag) (ref : CallRef) (s : State) : Out :=
  request (.readContext tag ref) 6 tag (doReadContext ref) s

/-! ### The attempt timer (R12, R13, R101) -/

/-- The attempt timer of a context has expired: it is ROUTED and its deadline has been reached (R13). -/
def attemptExpired (s : State) (c : Context) : Bool :=
  c.state == .routed && match c.attemptDeadline with
    | some d => d ≤ now s
    | none => false

/-- ATTEMPT TIMER EXPIRY (R13, R101). Where the timer does not run or its deadline lies ahead, the expiry does not
happen. -/
def execAttemptTimerExpiry (i : Nat) (s : State) : Out :=
  .next (match contextAt s i with
    | some c =>
      if attemptExpired s c then selectAndReport i .timeout (endAttempt i c .timedOut s) else s
    | none => s)

end Sys2Proof.Machine
end

