-- ==== Sys2Proof/Machine/Congestion.lean ====
section
/-! DEFINITION. The congestion monitor: windows, their judgement, adopted levels (06). -/

namespace Sys2Proof.Machine

open Sys2Proof

/-- A measurement started afresh (R108, R124). -/
def Measurement.fresh : Measurement := ⟨0, 0, 0, 0, 0, 0, 0, [], 0⟩

/-- Running deciseconds of a group's window (R109). -/
def windowDs (gr : CircuitGroup) : Nat := gr.record.window * 10

/-- Occupancy of the window in per cent; 0 for a group without circuits (R113). -/
def occupancyOf (gr : CircuitGroup) : Nat :=
  if gr.count = 0 then 0 else 100 * gr.meas.integral / (gr.count * windowDs gr)

/-- Overflow ratio of the window in per-mille; absent below 8 bids (R113). -/
def overflowRatio (m : Measurement) : Option Nat :=
  if m.bids < Config.ratioBids then none else some (1000 * m.overflows / m.bids)

/-- The raw level of the window (R114). -/
def rawLevel (gr : CircuitGroup) : Nat :=
  match overflowRatio gr.meas with
  | some r => gr.record.overflow.level r
  | none => gr.record.occupancy.level (occupancyOf gr)

/-- The history with a raw level at its head, at most 8 (R115). -/
def recordLevel (raw : Nat) (history : List Nat) : List Nat := (raw :: history).take Config.historyLength

/-- The smallest of a list of levels, 3 for none. -/
def smallest (l : List Nat) : Nat := l.foldl min 3

/-- The largest of a list of levels. -/
def largest (l : List Nat) : Nat := l.foldl max 0

/-- The adopted level by the rise test, then the fall test (R116). -/
def adoptLevel (rise fall adopted : Nat) (history : List Nat) : Nat :=
  if rise ≤ history.length ∧ adopted < smallest (history.take rise) then smallest (history.take rise)
  else if fall ≤ history.length ∧ largest (history.take fall) < adopted then adopted - 1
  else adopted

/-- Mean hold time of the window in deciseconds (R118). -/
def meanHold (m : Measurement) : Nat := if m.released = 0 then 0 else m.holdTime / m.released

/-- The group's adopted level is changed: CONGESTION CHANGE, then "group at level 3" is re-evaluated (R117, R121). -/
def reportLevel (g old new : Nat) (s : State) : State :=
  if old = new then s else recheck .groupAtLevel3 (postNotice (.congestionChange g old new) s)

/-- MEASUREMENT REPORT of a window just judged (R118). -/
def measurementReport (g : Nat) (gr : CircuitGroup) (raw adopted : Nat) : Notice :=
  .measurementReport g gr.meas.bids gr.meas.overflows gr.meas.crankbacks (occupancyOf gr) (meanHold gr.meas) raw
    adopted

/-- The measurement after an expiry: history and level as judged, the accumulators and elapsed cleared (R115, R116,
R119). -/
def judged (gr : CircuitGroup) : Measurement :=
  let history := recordLevel (rawLevel gr) gr.meas.history
  { Measurement.fresh with
    history := history, adopted := adoptLevel gr.record.rise gr.record.fall gr.meas.adopted history }

/-- A group's window expires and is judged: raw level, history, adopted level with its notice, report, clearing (R113 to
R119). -/
def judgeWindow (g : Nat) (s : State) : State :=
  match groupAt s g with
  | none => s
  | some gr =>
    let t := modifyGroup g (fun gr => { gr with meas := judged gr }) s
    let u := reportLevel g gr.meas.adopted (judged gr).adopted t
    if gr.record.report then postNotice (measurementReport g gr (rawLevel gr) (judged gr).adopted) u else u

/-- One advance taken by a RUNNING window: its integral grows by the busy count, then its elapsed rises by one (R109,
R110). -/
def Measurement.integrate (busy : Nat) (m : Measurement) : Measurement :=
  { m with integral := satAdd Config.integralBound m.integral busy, elapsed := m.elapsed + 1 }

/-- An advance at one group: its window takes it, and is judged in the same event where it ends (R109). -/
def advanceWindow (g : Nat) (s : State) : State :=
  match groupAt s g with
  | none => s
  | some gr =>
    let t := modifyGroup g (fun gr => { gr with meas := gr.meas.integrate gr.busyCount }) s
    if windowDs gr ≤ gr.meas.elapsed + 1 then judgeWindow g t else t

/-- An advance at every group, in ascending group order (R109, log 3); PAUSED windows take none (R120). -/
def advanceWindows (s : State) : State :=
  if windowsRunning s then (s.groups.map (·.1)).foldl (fun t g => advanceWindow g t) s else s

end Sys2Proof.Machine
end

