-- ==== Sys2Proof/Machine/Clock.lean ====
section
/-! DEFINITION. The clock and the timers: MONOTONIC ADVANCE and the expiries of guard intervals, measurement windows, the
destination window, gaps and hold-waits (R37, R50, R109, R126, R135, R139, R140, R181). -/

namespace Sys2Proof.Machine

open Sys2Proof

/-- The two clocks after one advance; "time unset" begins where the wall clock passes its end (R139, R140). -/
def advanceClocks (s : State) : State :=
  recheck .timeUnset
    { s with time := { s.time with count := nextCount s.time.count, wall := nextWall s.time.wall } }

/-- The destination window takes the advance while it runs (R37). At 0 its expiry is due (log 24). -/
def advanceDestination (s : State) : State :=
  if windowsRunning s then { s with num := { s.num with destRemaining := s.num.destRemaining - 1 } } else s

/-- One advance of the monotonic count (R109, R139, R140). DESIGN CHOICE (log 35): within it the clocks move before the
windows, so a "time unset" notice stands before theirs; no rule states that order. -/
def advance (s : State) : State := advanceWindows (advanceDestination (advanceClocks s))

/-- MONOTONIC ADVANCE (R139). -/
def execMonotonicAdvance (s : State) : Out := .next (advance s)

/-- The next advance ends the group's window (R109). -/
def windowEnding (s : State) (g : Nat) : Bool :=
  windowsRunning s && match groupAt s g with
    | some gr => windowDs gr ≤ gr.meas.elapsed + 1
    | none => false

/-- MEASUREMENT WINDOW EXPIRY (R109): the advance of the monotonic count on which this group's window expires; by R109
the expiry is processed within that advance and is no event apart from it (log 1). Where the next advance does not end
the group's window, there is no such event. -/
def execMeasurementWindowExpiry (g : Nat) (s : State) : Out := .next (if windowEnding s g then advance s else s)

/-- The guard of a circuit has reached its deadline (R50; for this and the expiries below, log 2). -/
def guardExpired (s : State) (gr : CircuitGroup) (c : Nat) : Bool :=
  match gr.circuits[c]? with
  | some (.guard d) => d ≤ now s
  | _ => false

/-- GUARD EXPIRY (R50). -/
def execGuardExpiry (g c : Nat) (s : State) : Out :=
  .next (match groupAt s g with
    | some gr => if guardExpired s gr c then modifyGroup g (·.makeIdle (now s) c) s else s
    | none => s)

/-- The destination window has ended: its running time is used up and it runs (R37). -/
def destinationExpired (s : State) : Bool := windowsRunning s && s.num.destRemaining == 0

/-- DESTINATION WINDOW EXPIRY (R37): every destination crankback count is cleared and the next window starts at once, of
the length then set. -/
def execDestinationWindowExpiry (s : State) : Out :=
  .next (if destinationExpired s then
      let t := clearAllCounts s
      { t with num := { t.num with destRemaining := t.num.destLength * 10 } }
    else s)

/-- A CLOSED entry has reached its gap deadline (R126). -/
def gapOpens (s : State) (e : GapEntry) : Bool :=
  match e.gapDeadline with
  | some d => d ≤ now s
  | none => false

/-- GAP DEADLINE (R126): the entry becomes OPEN and keeps its last pass. -/
def execGapDeadline (slot : Nat) (s : State) : Out :=
  .next (match Table.find s.gap.slots slot with
    | some e => if gapOpens s e then putGap slot { e with gapDeadline := none } s else s
    | none => s)

/-- An entry has reached its lifetime deadline (R135). -/
def gapLapsed (s : State) (e : GapEntry) : Bool :=
  match e.lifetime with
  | some d => d ≤ now s
  | none => false

/-- GAP LIFETIME EXPIRY (R135): the entry is removed and GAP CHANGE EXPIRED is sent. -/
def execGapLifetimeExpiry (slot : Nat) (s : State) : Out :=
  .next (match Table.find s.gap.slots slot with
    | some e => if gapLapsed s e then gapChange (.expired e.gapped) slot e (removeGap slot s) else s
    | none => s)

/-- The hold-wait of a context has expired: it stands in the held queue and its deadline has been reached (R181). -/
def holdWaitExpired (s : State) (i : Nat) : Bool :=
  s.eng.held.any (fun e => e.ref == refOf s i && e.deadline ≤ now s)

/-- HOLD-WAIT EXPIRY (R181): the context is freed with CALL FAILED (ENGINE HELD). -/
def execHoldWaitExpiry (i : Nat) (s : State) : Out :=
  .next (match contextAt s i with
    | some _ => if holdWaitExpired s i then freeContext i (some .engineHeld) s else s
    | none => s)

end Sys2Proof.Machine
end

