-- ==== Sys2Proof/Machine/Groups.lean ====
section
/-! DEFINITION. The circuit table's requests: GROUP DEFINE, GROUP SERVICE, GROUP READ, CIRCUIT BLOCK, CIRCUIT UNBLOCK,
READ GROUP COUNTERS (03; R107, R108, R122). -/

namespace Sys2Proof.Machine

open Sys2Proof

/-! ### GROUP DEFINE (R41, R42, R108) -/

/-- A group in use may not be redefined: it is in service or draining, or holds a busy circuit (R41). -/
def CircuitGroup.inUse (gr : CircuitGroup) : Bool := gr.record.service != .outOfService || 0 < gr.busyCount

/-- The total circuit count that a definition with `count` circuits would give (R41). -/
def totalAfter (s : State) (g count : Nat) : Nat :=
  totalCircuits s - (match groupAt s g with | some gr => gr.count | none => 0) + count

/-- A circuit at a redefinition: BLOCKED stays BLOCKED, every other is IDLE (R42). -/
def Circuit.redefined (time : Nat) : Circuit → Circuit
  | .blocked => .blocked
  | _ => .idle time

/-- The circuits of a definition: those that were BLOCKED below the new count stay so, the rest are IDLE (R42). -/
def definedCircuits (time count : Nat) (old : List Circuit) : List Circuit :=
  (List.range count).map (fun c => match old[c]? with | some k => k.redefined time | none => .idle time)

/-- The group as a definition leaves it; `old` is the group it replaces (R42, R108). -/
def definedGroup (time count : Nat) (record : GroupRecord) (old : Option CircuitGroup) : CircuitGroup :=
  let circuits := definedCircuits time count (match old with | some o => o.circuits | none => [])
  { record := record, circuits := circuits, idleList := idleNumbers circuits, rotate := 0,
    counters := match old with | some o => o.counters | none => Counters.zero, meas := Measurement.fresh }

/-- An accepted GROUP DEFINE: record, circuits and counters, then the measurement started afresh with CONGESTION CHANGE
where a level other than 0 is reset (R42, R108). -/
def defineGroup (g count : Nat) (record : GroupRecord) (s : State) : State × Reply :=
  let old := groupAt s g
  let t := putGroup g (definedGroup (now s) count record old) s
  let u := match old with
    | some o => reportLevel g o.meas.adopted 0 t
    | none => t
  done (.groupDefined g record count (totalCircuits u)) u

/-- GROUP DEFINE (R41, R42): the field check, then group in use, then capacity. -/
def doGroupDefine (g : Nat) (f : GroupFields) (s : State) : State × Reply :=
  match f.adopt g .outOfService with
  | none => refuse .badField s
  | some record =>
    if (match groupAt s g with | some gr => gr.inUse | none => false) then refuse .inUse s
    else if Config.totalCircuits < totalAfter s g f.count then
      (s, .refuse .tableFull (.totalCircuits (totalCircuits s)))
    else defineGroup g f.count record s

/-- GROUP DEFINE (R41, R42). -/
def execGroupDefine (tag : Tag) (g : Nat) (f : GroupFields) (s : State) : Out :=
  request (.groupDefine tag g f) 24 tag (doGroupDefine g f) s

/-! ### GROUP SERVICE (R43) -/

/-- GROUP SERVICE (R43). -/
def doGroupService (g : Nat) (service : Named ServiceState) (s : State) : State × Reply :=
  match service with
  | none => refuse .badField s
  | some v =>
    if g < Config.groupCount then
      match groupAt s g with
      | none => refuse .notFound s
      | some gr =>
        if v = .outOfService ∧ 0 < gr.busyCount then refuse .inUse s
        else
          done (.groupService gr.record.service v)
            (modifyGroup g (fun gr => { gr with record := { gr.record with service := v } }) s)
    else refuse .badField s

/-- GROUP SERVICE (R43). -/
def execGroupService (tag : Tag) (g : Nat) (service : Named ServiceState) (s : State) : Out :=
  request (.groupService tag g service) 25 tag (doGroupService g service) s

/-! ### GROUP READ (R44, R122) -/

/-- The numbers of circuits in each state (R44). -/
def stateCounts (l : List Circuit) : StateCounts :=
  { idle := l.countP (·.name == .idle), out := l.countP (·.name == .out), inc := l.countP (·.name == .inc),
    guard := l.countP (·.name == .guard), blocked := l.countP (·.name == .blocked) }

/-- A circuit as GROUP READ lists it (R44). -/
def circuitView (time : Nat) (idleList : List Nat) (c : Nat) : Circuit → CircuitView
  | .idle _ => .idle c ((placeOf c idleList).getD 0)
  | .out ref since p => .out c ref (time - since) p
  | .inc ref since p => .inc c ref (time - since) p
  | .guard d => .guard c (remaining time d)
  | .blocked => .blocked c

/-- The circuits from a first one on, as many as asked, up to the last of the group (R44). -/
def circuitViews (time : Nat) (gr : CircuitGroup) (first n : Nat) : List CircuitView :=
  ((gr.circuits.zipIdx.drop first).take n).map (fun e => circuitView time gr.idleList e.2 e.1)

/-- The fields GROUP READ shows (R44, R122). -/
def groupView (s : State) (g : Nat) (gr : CircuitGroup) (range : Option (Nat × Nat)) : GroupView :=
  { group := g, record := gr.record, count := gr.count, states := stateCounts gr.circuits,
    blockPending := gr.circuits.countP (·.blockPending), idleCount := gr.idleCount, busyCount := gr.busyCount,
    rotate := gr.rotate, idleHead := gr.idleList.head?, meas := gr.meas,
    historyLength := gr.meas.history.length, windowRunning := windowsRunning s,
    windowRemaining := windowDs gr - gr.meas.elapsed,
    circuits := match range with
      | some (first, n) => circuitViews (now s) gr first n
      | none => [] }

/-- The range of circuits a GROUP READ asks for lies in its bounds (R44). -/
def readRangeGood : Option (Nat × Nat) → Bool
  | none => true
  | some (first, n) => first < Config.groupCircuits && 1 ≤ n && n ≤ 64

/-- The first circuit asked for exists (R44). -/
def readRangeExists (gr : CircuitGroup) : Option (Nat × Nat) → Bool
  | none => true
  | some (first, _) => first < gr.count

/-- GROUP READ (R44, R122). -/
def doGroupRead (g : Nat) (range : Option (Nat × Nat)) (s : State) : State × Reply :=
  if g < Config.groupCount && readRangeGood range then
    match groupAt s g with
    | none => refuse .notFound s
    | some gr =>
      if readRangeExists gr range then done (.group (groupView s g gr range)) s else refuse .notFound s
  else refuse .badField s

/-- GROUP READ (R44, R122). -/
def execGroupRead (tag : Tag) (g : Nat) (range : Option (Nat × Nat)) (s : State) : Out :=
  request (.groupRead tag g range) 26 tag (doGroupRead g range) s

/-! ### Blocking (R51, R52) -/

/-- The checks CIRCUIT BLOCK and CIRCUIT UNBLOCK share (R51, R52): range, then the group and the circuit exist. The reply
shows the circuit's state and block-pending mark after the request. -/
def onCircuit (g c : Nat) (act : Nat → Circuit → CircuitGroup → CircuitGroup) (s : State) : State × Reply :=
  if g < Config.groupCount && c < Config.groupCircuits then
    match groupAt s g with
    | none => refuse .notFound s
    | some gr =>
      match gr.circuits[c]? with
      | none => refuse .notFound s
      | some k =>
        let new := ((act c k gr).circuits[c]?).getD k
        done (.circuit new.name new.blockPending) (modifyGroup g (act c k) s)
  else refuse .badField s

/-- The effect of CIRCUIT BLOCK by the circuit's state (R51). -/
def blockCircuit (c : Nat) (k : Circuit) (gr : CircuitGroup) : CircuitGroup :=
  match k with
  | .idle _ => gr.takeFromIdle c .blocked
  | .guard _ => gr.setCircuit c .blocked
  | .out ref since _ => gr.setCircuit c (.out ref since true)
  | .inc ref since _ => gr.setCircuit c (.inc ref since true)
  | .blocked => gr

/-- The effect of CIRCUIT UNBLOCK by the circuit's state (R52). -/
def unblockCircuit (time c : Nat) (k : Circuit) (gr : CircuitGroup) : CircuitGroup :=
  match k with
  | .blocked => gr.makeIdle time c
  | .out ref since _ => gr.setCircuit c (.out ref since false)
  | .inc ref since _ => gr.setCircuit c (.inc ref since false)
  | .idle _ => gr
  | .guard _ => gr

/-- CIRCUIT BLOCK (R51). -/
def execCircuitBlock (tag : Tag) (g c : Nat) (s : State) : Out :=
  request (.circuitBlock tag g c) 27 tag (onCircuit g c blockCircuit) s

/-- CIRCUIT UNBLOCK (R52). -/
def execCircuitUnblock (tag : Tag) (g c : Nat) (s : State) : Out :=
  request (.circuitUnblock tag g c) 28 tag (fun t => onCircuit g c (unblockCircuit (now t)) t) s

/-! ### READ GROUP COUNTERS (R60) -/

/-- READ GROUP COUNTERS (R60): the counters and marks are shown, then the marks are cleared. -/
def doReadGroupCounters (g : Nat) (s : State) : State × Reply :=
  if g < Config.groupCount then
    match groupAt s g with
    | none => refuse .notFound s
    | some gr =>
      done (.counters gr.counters) (recheck .counterWrapped
        (modifyGroup g (fun gr => { gr with counters := gr.counters.clearMarks }) s))
  else refuse .badField s

/-- READ GROUP COUNTERS (R60). -/
def execReadGroupCounters (tag : Tag) (g : Nat) (s : State) : Out :=
  request (.readGroupCounters tag g) 29 tag (doReadGroupCounters g) s

end Sys2Proof.Machine
end

