-- ==== Sys2Proof/Machine/LinkRequests.lean ====
section
/-! DEFINITION. The link interface's requests and its sending: STATUS, NOTICE ENABLE, NOTICE DISABLE, DEVICE SETTINGS,
REJECT, MESSAGE SENT (R192 to R198). -/

namespace Sys2Proof.Machine

open Sys2Proof

/-! ### STATUS (R197) -/

/-- The figures STATUS shows (R197). -/
def statusView (s : State) : StatusView :=
  { conditions := s.link.conditions, enabled := s.link.enabled, engine := s.eng.state, reason := s.eng.reason,
    held := s.eng.held.length, faultLatched := s.eng.fault.isSome, faultCount := s.eng.faultCount,
    free := freeCount s, queued := countState .queued s, routed := countState .routed s,
    alerting := countState .alerting s, answered := countState .answered s, closing := countState .closing s,
    routeLists := s.sel.routeLists.length, settlement := s.rate.queue.length, seq := s.rate.seq, count := now s,
    wall := s.time.wall, inBuffer := s.link.inBuf.length, outHeld := s.link.outQueue.length,
    outFree := s.link.free, checkErrors := s.link.checkErrors, overruns := s.link.overruns,
    rejects := s.link.rejects, noticesLost := s.link.noticesLost }

/-- The four link counters set to 0 (R197). -/
def clearLinkCounters (s : State) : State :=
  { s with link := { s.link with checkErrors := 0, overruns := 0, rejects := 0, noticesLost := 0 } }

/-- STATUS (R197): CLEAR sets the link counters to 0 after the reply is formed. -/
def doStatus (clear : Named Bool) (s : State) : State × Reply :=
  match clear with
  | none => refuse .badField s
  | some true => done (.status (statusView s)) (clearLinkCounters s)
  | some false => done (.status (statusView s)) s

/-- STATUS (R197). -/
def execStatus (tag : Tag) (clear : Named Bool) (s : State) : Out :=
  request (.status tag clear) 80 tag (doStatus clear) s

/-! ### NOTICE ENABLE and NOTICE DISABLE (R195) -/

/-- The enabled set with the classes named present or absent (R195). -/
def setClasses (present : Bool) (l : List NoticeClass) (s : State) : State :=
  { s with link := { s.link with
      enabled := l.foldl (fun set c => putInSet NoticeClass.all c present set) s.link.enabled } }

/-- NOTICE ENABLE and NOTICE DISABLE: all names are good, or nothing changes (R195). -/
def doNotices (present : Bool) (classes : List (Named NoticeClass)) (s : State) : State × Reply :=
  match allNamed classes with
  | none => refuse .badField s
  | some l =>
    let t := setClasses present l s
    done (.notices t.link.enabled t.link.conditions) t

/-- NOTICE ENABLE (R195). -/
def execNoticeEnable (tag : Tag) (classes : List (Named NoticeClass)) (s : State) : Out :=
  request (.noticeEnable tag classes) 81 tag (doNotices true classes) s

/-- NOTICE DISABLE (R195). -/
def execNoticeDisable (tag : Tag) (classes : List (Named NoticeClass)) (s : State) : Out :=
  request (.noticeDisable tag classes) 82 tag (doNotices false classes) s

/-! ### DEVICE SETTINGS (R198) -/

/-- The seven settings as they stand (R198). -/
def settingsOf (s : State) : Settings :=
  { ordinaryReserve := s.ctx.ordinaryReserve, bulkReserve := s.ctx.bulkReserve, destinationWindow := s.num.destLength,
    crankbackLimit := s.sel.crankbackLimit, attemptTimeout := s.sel.attemptTimeout, holdWait := s.eng.holdWait,
    watermark := s.rate.watermark }

/-- The seven settings as adopted: a value clamped, KEEP as it stands, the bulk reserve raised to the ordinary one (R6,
R37, R66, R171, R180, R198). -/
def adoptSettings (f : SettingsFields) (p : Settings) : Settings :=
  let value (k : Keep Nat) (lo hi present : Nat) : Nat := match k with
    | .keep => present
    | .to v => clamp lo hi v
  let ordinary := value f.ordinaryReserve 0 4096 p.ordinaryReserve
  { ordinaryReserve := ordinary, bulkReserve := max ordinary (value f.bulkReserve 0 4096 p.bulkReserve),
    destinationWindow := value f.destinationWindow 5 60 p.destinationWindow,
    crankbackLimit := value f.crankbackLimit 0 7 p.crankbackLimit,
    attemptTimeout := value f.attemptTimeout 20 600 p.attemptTimeout,
    holdWait := value f.holdWait 1 100 p.holdWait, watermark := value f.watermark 1 2048 p.watermark }

/-- The settings handed to their blocks (R198). -/
def applySettings (v : Settings) (s : State) : State :=
  { s with
    ctx := { s.ctx with ordinaryReserve := v.ordinaryReserve, bulkReserve := v.bulkReserve },
    num := { s.num with destLength := v.destinationWindow },
    sel := { s.sel with crankbackLimit := v.crankbackLimit, attemptTimeout := v.attemptTimeout },
    eng := { s.eng with holdWait := v.holdWait },
    rate := { s.rate with watermark := v.watermark } }

/-- DEVICE SETTINGS (R198): "contexts in reserve", then "settlement backlog" are re-evaluated. -/
def doDeviceSettings (f : SettingsFields) (s : State) : State × Reply :=
  let v := adoptSettings f (settingsOf s)
  done (.settings v) (recheck .settlementBacklog (recheck .contextsInReserve (applySettings v s)))

/-- DEVICE SETTINGS (R198). -/
def execDeviceSettings (tag : Tag) (f : SettingsFields) (s : State) : Out :=
  request (.deviceSettings tag f) 83 tag (doDeviceSettings f) s

/-! ### REJECT (R192) -/

/-- REJECT (R192): a frame that fails one of the three tests is taken and answered REJECT. A frame that passes them is no
such event. -/
def execReject (f : Frame) (s : State) : Out :=
  .next (match frameFault f with
    | some reason => serve (· == f) f (some reason) (refuse .badField) s
    | none => s)

/-! ### MESSAGE SENT (R193) -/

/-- A free place takes the call report at the head of the pending-report list; a context no longer in use then joins the
free list (R2, R17, R193). -/
def enterPending (s : State) : State :=
  match s.ctx.reports with
  | [] => s
  | (i, r) :: rest =>
    if 0 < s.link.free then
      let t := { s with link := s.link.enqueue (.report r), ctx := { s.ctx with reports := rest } }
      if (contextAt t i).isSome then t else joinFree i t
    else s

/-- MESSAGE SENT (R193): the message at the head has been sent whole and its place becomes free. Nothing is sent while the
RESET line is asserted (R200) or the queue is empty. -/
def execMessageSent (s : State) : Out :=
  .next (if s.link.resetLine then s
    else
      match s.link.outQueue with
      | [] => s
      | m :: rest => enterPending { s with link := { s.link with outQueue := rest, txd := s.link.txd ++ [m] } })

end Sys2Proof.Machine
end

