-- ==== Sys2Proof/Machine/Receiver.lean ====
section
/-! DEFINITION. The frame receiver and the input buffer: bytes into frames, the CRC, and the events of LINK RXD (R190,
R191). -/

namespace Sys2Proof.Machine

open Sys2Proof

/-! ### The check (R190) -/

/-- One bit into the CRC register, generator x^16 + x^12 + x^5 + 1, most significant bit first (R190). -/
def crcBit (crc : BitVec 16) (bit : Bool) : BitVec 16 :=
  if crc.msb != bit then (crc <<< 1) ^^^ 0x1021#16 else crc <<< 1

/-- One byte, most significant bit first (R190). -/
def crcByte (crc : BitVec 16) (b : Byte) : BitVec 16 :=
  [7, 6, 5, 4, 3, 2, 1, 0].foldl (fun c i => crcBit c (b.getLsbD i)) crc

/-- The CRC over bytes: the register starts at FFFFh, the result is not inverted (R190). -/
def crcOf (l : List Byte) : BitVec 16 := l.foldl crcByte 0xFFFF#16

/-! ### Frames (R190, section 11.9) -/

/-- The first sync byte. -/
def sync1 : Byte := 0xD2#8

/-- The second sync byte. -/
def sync2 : Byte := 0x6C#8

/-- A 16-bit field from two bytes, most significant first. -/
def word16 (hi lo : Byte) : BitVec 16 := hi ++ lo

/-- The frame that good bytes spell; the bytes begin at the length field and end with the check. -/
def frameOf (l : List Byte) : Option Frame :=
  match l with
  | _ :: _ :: kind :: t1 :: t0 :: rest => some ⟨kind, word16 t1 t0, rest.take (rest.length - 2)⟩
  | _ => none

/-- The two check bytes that end a frame (R190). -/
def checkOf (l : List Byte) : BitVec 16 :=
  match l.drop (l.length - 2) with
  | [hi, lo] => word16 hi lo
  | _ => 0

/-- The received check equals the CRC over length, kind, tag and body (R190). -/
def checkGood (l : List Byte) : Bool := crcOf (l.take (l.length - 2)) == checkOf l

/-- A check error is counted (R190). -/
def Link.countCheckError (l : Link) : Link :=
  { l with checkErrors := satAdd Config.counterBound l.checkErrors 1 }

/-! ### Bytes (R190) -/

/-- A hunting receiver takes a byte: the first sync byte followed at once by the second begins a frame (R190). -/
def huntByte (time : Nat) (sawFirst : Bool) (b : Byte) : Receiver :=
  if sawFirst && b == sync2 then .assembling [] time else .hunting (b == sync1)

/-- The receiver after bytes it hunts through; a pair among them leaves it assembling, and bytes after the pair join the
frame. -/
def huntBytes (time : Nat) (l : List Byte) : Receiver :=
  l.foldl (fun r b => match r with
    | .hunting saw => huntByte time saw b
    | .assembling bytes _ => .assembling (bytes ++ [b]) time) (.hunting false)

/-- A frame with a bad length is discarded and counted; the receiver returns to hunting from the byte after the first
sync byte: the second sync byte and the two length bytes (R190). -/
def Link.badLength (time : Nat) (hi lo : Byte) (l : Link) : Link :=
  { l.countCheckError with rx := huntBytes time [sync2, hi, lo] }

/-- A complete frame: a good check sends it to the input buffer, a bad one is counted; the receiver hunts from the byte
after it (R190). -/
def Link.complete (bytes : List Byte) (l : Link) : Link :=
  let h := { l with rx := Receiver.hunting false }
  if checkGood bytes then
    match frameOf bytes with
    | some f => h.accept f
    | none => h.countCheckError
  else h.countCheckError

/-- An assembling receiver has taken its bytes up to and including the latest (R190): the length is judged when it is
whole, the frame when its last check byte has come. -/
def Link.assembled (time : Nat) (bytes : List Byte) (l : Link) : Link :=
  match bytes with
  | hi :: lo :: _ =>
    let n := (word16 hi lo).toNat
    if Config.maxBody < n then l.badLength time hi lo
    else if bytes.length = 7 + n then l.complete bytes
    else { l with rx := .assembling bytes time }
  | _ => { l with rx := .assembling bytes time }

/-- The inter-byte limit has passed at an instant for a frame being assembled (R190). -/
def Receiver.overdue (time : Nat) : Receiver → Bool
  | .assembling _ last => last + Config.interByteLimit ≤ time
  | .hunting _ => false

/-- A partial frame whose inter-byte limit has passed is discarded and counted, and the receiver hunts (R190). -/
def Link.dropOverdue (time : Nat) (l : Link) : Link :=
  if l.rx.overdue time then { l.countCheckError with rx := .hunting false } else l

/-- A byte joins the hunt or the frame being assembled (R190). -/
def Link.joinByte (time : Nat) (l : Link) (b : Byte) : Link :=
  match l.rx with
  | .hunting saw => { l with rx := huntByte time saw b }
  | .assembling bytes _ => l.assembled time (bytes ++ [b])

/-- A byte arrives on LINK RXD (R190). One that comes at or past the inter-byte limit finds the partial frame discarded,
whether or not INTER-BYTE TIMEOUT was given before it (log 21). -/
def Link.takeByte (time : Nat) (l : Link) (b : Byte) : Link := (l.dropOverdue time).joinByte time b

/-- Bytes arrive on LINK RXD, ignored while the RESET line is asserted (R190, R200; log 20, log 21). -/
def receive (bytes : List Byte) (s : State) : State :=
  if s.link.resetLine then s else { s with link := bytes.foldl (Link.takeByte s.time.count) s.link }

/-! ### The events of LINK RXD -/

/-- FRAME RECEIVED (R190, R191): the bytes that complete a frame arrive. -/
def execFrameReceived (bytes : List Byte) (s : State) : Out := .next (receive bytes s)

/-- The receiver hunts. -/
def Receiver.isHunting : Receiver → Bool
  | .hunting _ => true
  | .assembling .. => false

/-- The receiver assembles and has taken no byte of the frame yet. -/
def Receiver.atLength : Receiver → Bool
  | .assembling [] _ => true
  | _ => false

/-- SYNC PAIR FOUND (R190): a hunting receiver finds the pair and enters the assembling state. An assembling one is not
looking for it (log 21). -/
def execSyncPairFound (s : State) : Out :=
  .next (if (s.link.dropOverdue s.time.count).rx.isHunting then receive [sync1, sync2] s else s)

/-- BAD LENGTH (R190): the two length bytes arrive and give a length above 1,024. A receiver that is not at a frame's
length meets no such event (log 21). -/
def execBadLength (n : BitVec 16) (s : State) : Out :=
  .next (if (s.link.dropOverdue s.time.count).rx.atLength ∧ Config.maxBody < n.toNat then
      receive [n.extractLsb' 8 8, n.extractLsb' 0 8] s
    else s)

/-- INTER-BYTE TIMEOUT (R190): the partial frame is discarded and counted, and the receiver returns to hunting. Before the
limit there is no such event (log 2). -/
def execInterByteTimeout (s : State) : Out := .next { s with link := s.link.dropOverdue s.time.count }

end Sys2Proof.Machine
end

