-- ==== Sys2Proof/Machine/Restart.lean ====
section
/-! DEFINITION. The restarts: WARM RESTART, COLD RESTART and the RESET line (R20, R21, R38, R39, R61, R62, R123, R124,
R137, R138, R172, R173, R188, R189, R199 to R201). -/

namespace Sys2Proof.Machine

open Sys2Proof

/-! ### RESTARTED (R201) -/

/-- RESTARTED with the figures of the state (R201). -/
def restartedOf (cause : RestartCause) (warm : Option WarmFigures) (s : State) : Message :=
  .restarted
    { cause := cause, count := now s, wall := s.time.wall, engine := s.eng.state, reason := s.eng.reason,
      conditions := s.link.conditions, warm := warm }

/-! ### The cold restart (R200) -/

/-- Every block in its initial state and RESTARTED queued; what left the part and the commands that wait are the model's
own and stay (R20, R38, R61, R85, R123, R137, R152, R173, R188, R196, R197, R200). -/
def coldState (cause : RestartCause) (sent : List Message) (s : State) : State :=
  { State.reset with
    link := { State.reset.link with outQueue := [restartedOf cause none State.reset], txd := sent },
    pending := s.pending }

/-- COLD RESTART is taken: the message being sent, at the head of the queue, is sent to its end, the others are
discarded, DONE is sent whole, and every block restarts (R200, log 10). -/
def coldRestart (tag : Tag) (s : State) : State :=
  coldState .coldRestart (s.link.txd ++ s.link.outQueue.take 1 ++ [.reply tag (.done .plain)]) s

/-- COLD RESTART (R192, R200). -/
def execColdRestart (tag : Tag) (s : State) : Out :=
  .next (serveFrame (isRequest 85 tag) (requestFrame (.coldRestart tag) 85 tag) (tagFault tag) (coldRestart tag) s)

/-- RESET ASSERTED (R200): the part takes nothing and sends nothing, and LINK READY and ATTN are deasserted. -/
def execResetAsserted (s : State) : Out := .next { s with link := { s.link with resetLine := true } }

/-- RESET RELEASED (R200): the cold restart, with no reply. A line that is not asserted is not released. -/
def execResetReleased (s : State) : Out :=
  .next (if s.link.resetLine then coldState .resetLine s.link.txd s else s)

/-! ### The warm restart (R21, R199) -/

/-- The BACKLOG test: fewer free places in the settlement queue than ANSWERED plus CLOSING contexts (R21). -/
def backlog (s : State) : Bool := settlementRoom s < countState .answered s + countState .closing s

/-- One ANSWERED context is rated as released now with its RESTART flag set, and its record enters (R21, step 1). -/
def rateAtRestart (s : State) (c : Context) : State :=
  if c.state = .answered then enterRecord (rateContext s { c with restart := true }) s else s

/-- The records of the ANSWERED contexts in ascending index enter the queue (R21, R172). -/
def rateAnswered (s : State) : State := s.ctx.contexts.foldl (fun t e => rateAtRestart t e.2) s

/-- Every context is freed without a report and the free list is rebuilt; generations and reserves are kept (R21, steps 2
and 3; log 19). -/
def freeAll (s : State) : State :=
  recheck .recordsPending (recheck .contextsInReserve
    { s with
      ctx := { s.ctx with
        contexts := [], freeList := List.range' 0 Config.contextCount, closing := [], reports := [] },
      eng := { s.eng with held := [] } })

/-- The number banks: counts 0, the destination window restarted with its full length (R39). -/
def warmAnalysis (s : State) : State :=
  let t := clearAllCounts s
  { t with num := { t.num with destRemaining := t.num.destLength * 10 } }

/-- A circuit after a warm restart (R62). -/
def Circuit.warm (time : Nat) : Circuit → Circuit
  | .idle _ => .idle time
  | .guard _ => .idle time
  | .out _ _ pending => if pending then .blocked else .idle time
  | .inc _ _ pending => if pending then .blocked else .idle time
  | .blocked => .blocked

/-- A group after a warm restart: circuits rebuilt, idle list ascending, pointer 0, measurement afresh; record, counters
and marks kept (R62, R124). -/
def CircuitGroup.warm (time : Nat) (gr : CircuitGroup) : CircuitGroup :=
  { gr with circuits := gr.circuits.map (·.warm time), idleList := idleNumbers (gr.circuits.map (·.warm time)),
            rotate := 0, meas := Measurement.fresh }

/-- Every group after a warm restart; "group at level 3" ends (R62, R124). -/
def warmGroups (s : State) : State :=
  recheck .groupAtLevel3 { s with groups := s.groups.map (fun e => (e.1, e.2.warm (now s))) }

/-- AUTOMATIC gap entries are removed, HOST SET ones kept (R138). -/
def warmGaps (s : State) : State :=
  { s with gap := { slots := s.gap.slots.filter (fun e => e.2.origin == .hostSet), autoList := [] } }

/-- STEPPING and HOLDING become HELD with the same reason, without ENGINE STATE (R189). -/
def warmEngine (s : State) : State :=
  { s with eng := { s.eng with
      state := (match s.eng.state with | .running => .running | _ => .held), stepped := none } }

/-- The figures RESTARTED carries for a warm restart (R201). -/
def warmFigures (s : State) : WarmFigures :=
  ⟨countState .answered s, s.ctx.contexts.length, countOrigin .automatic s⟩

/-- The blocks make their warm restarts: the context store first, then the others (R199; log 27). -/
def warmBlocks (s : State) : State :=
  warmEngine (recheck .settlementBacklog (warmGaps (warmGroups (warmAnalysis (freeAll (rateAnswered s))))))

/-- A message joins the tail in a reserved place (R193, R201). -/
def sendReserved (m : Message) (s : State) : State :=
  { s with link := { s.link.enqueue m with reserved := s.link.reserved - 1 } }

/-- An accepted WARM RESTART: DONE joins the queue first, the blocks restart, RESTARTED closes the event in the second
reserved place (R199, R201). -/
def warmRestart (tag : Tag) (s : State) : State :=
  let t := warmBlocks (sendReply tag (.done .plain) s)
  sendReserved (restartedOf .warmRestart (some (warmFigures s)) t) t

/-- WARM RESTART taken: refused BACKLOG with the second place released, or accepted (R21, R199). -/
def takeWarmRestart (tag : Tag) (s : State) : State :=
  if backlog s then releasePlace (sendReply tag (.refuse .backlog .none) s) else warmRestart tag s

/-- WARM RESTART (R192, R199): it is taken with two places. -/
def execWarmRestart (tag : Tag) (s : State) : Out :=
  .next (serveFrame (isRequest 84 tag) (requestFrame (.warmRestart tag) 84 tag) (tagFault tag) (takeWarmRestart tag) s)

end Sys2Proof.Machine
end

