-- ==== Sys2Proof/Machine/Settlement.lean ====
section
/-! DEFINITION. READ RECORDS and DISCARD RECORDS (R167 to R171). -/

namespace Sys2Proof.Machine

open Sys2Proof

/-- Body bytes that the reply to READ RECORDS leaves for records (R192: its fixed part takes 14; log 15). -/
def recordRoom : Nat := Config.maxBody - 14

/-- READ RECORDS (R168). -/
def doReadRecords (n : Nat) (s : State) : State × Reply :=
  if 1 ≤ n && n ≤ 16 then
    done (.records (fitting recordRoom (s.rate.queue.take n)) s.rate.queue.length (oldestSeq s) s.rate.seq
      (countState .closing s)) s
  else refuse .badField s

/-- READ RECORDS (R168). -/
def execReadRecords (tag : Tag) (n : Nat) (s : State) : Out := request (.readRecords tag n) 56 tag (doReadRecords n) s

/-- A CLOSING context's record enters the queue and the context is freed (R15, R167). -/
def moveIn (i : Nat) (s : State) : State :=
  match contextAt s i with
  | some c =>
    match c.pendingRecord with
    | some r => freeContext i none (enterRecord r s)
    | none => s
  | none => s

/-- DISCARD RECORDS passes its checks (R169, the second and third). -/
def discardRefusal (first : BitVec 32) (n : Nat) (s : State) : Option (Cause × Figures) :=
  if (match oldestSeq s with | some q => q != first | none => false) then
    some (.mismatch, .oldest (oldestSeq s) s.rate.queue.length)
  else if s.rate.queue.length < n then some (.badField, .none)
  else none

/-- An accepted DISCARD RECORDS: the oldest leave, CLOSING contexts move in from the head of their list, one per free
place, and "settlement backlog" is re-evaluated (R167, R169). -/
def discard (n : Nat) (s : State) : State × Reply :=
  let t := { s with rate := { s.rate with queue := s.rate.queue.drop n } }
  let moving := t.ctx.closing.take (settlementRoom t)
  let u := recheck .settlementBacklog (moving.foldl (fun v i => moveIn i v) t)
  done (.discarded n moving.length u.rate.queue.length (oldestSeq u) (countState .closing u)) u

/-- DISCARD RECORDS (R169). -/
def doDiscardRecords (first : BitVec 32) (n : Nat) (s : State) : State × Reply :=
  if 1 ≤ n && n ≤ Config.settlementPlaces then
    match discardRefusal first n s with
    | some (cause, figures) => (s, .refuse cause figures)
    | none => discard n s
  else refuse .badField s

/-- DISCARD RECORDS (R169). -/
def execDiscardRecords (tag : Tag) (first : BitVec 32) (n : Nat) (s : State) : Out :=
  request (.discardRecords tag first n) 57 tag (doDiscardRecords first n) s

end Sys2Proof.Machine
end

