-- ==== Sys2Proof/Machine/Supervisor.lean ====
section
/-! DEFINITION. The engine supervisor's requests: HOLD, FORCE HOLD, RESUME, STEP, TRIAL, FAULT ACK, HELD MEASUREMENT
(10). -/

namespace Sys2Proof.Machine

open Sys2Proof

/-! ### HOLD and FORCE HOLD (R176, R178) -/

/-- The figures of HOLD's reply: state and reason after the request, and the ROUTED count (R176). -/
def engineReply (s : State) : State × Reply := done (.engine s.eng.state s.eng.reason (routedCount s)) s

/-- HOLD (R176). -/
def doHold (s : State) : State × Reply :=
  match s.eng.state with
  | .running => engineReply (setEngine (if routedCount s = 0 then .held else .holding) .host s)
  | .holding => engineReply s
  | .held => engineReply s
  | .stepping => refuse .busy s

/-- HOLD (R176). -/
def execHold (tag : Tag) (s : State) : Out := request (.hold tag) 64 tag doHold s

/-- FORCE HOLD (R178): the reply shows the former state and reason. -/
def doForceHold (s : State) : State × Reply :=
  done (.engine s.eng.state s.eng.reason (routedCount s)) (setEngine .held .forced s)

/-- FORCE HOLD (R178). -/
def execForceHold (tag : Tag) (s : State) : Out := request (.forceHold tag) 65 tag doForceHold s

/-! ### RESUME (R179) -/

/-- What a drain has done so far (R179). -/
structure Drain where
  released : Nat
  routed : Nat
  failed : Nat
  deriving DecidableEq, Repr

/-- An entry leaves the held queue to be released and its hold-wait deadline is cancelled (R179, R182). -/
def releaseHeld (e : HeldEntry) (s : State) : State :=
  modifyContext (e.ref / Config.generationCount) (fun c => { c with holdDeadline := none }) (leaveHeld e.ref s)

/-- The released context's selection runs; a seizure sends ROUTE REPORT (RELEASED FROM HOLD), a failure CALL FAILED with
the context freed (R179, R182). -/
def selectReleased (i : Nat) (c : Context) (s : State) : State × StepResult :=
  match runSelection i c s with
  | (t, .seized g k p _) => (callReport i (.routeReport (refOf s i) .releasedFromHold g k) t, .seized g k p)
  | (t, .failed cause) => (freeContext i (some cause) t, .failed cause)
  | (t, .queued) => (t, .failed .engineHeld)

/-- The drain of the held queue in service order, until it is empty or the engine leaves RUNNING (R179). `fuel` bounds
the entries, none of which joins during the drain. -/
def drainHeld : Nat → Drain → State → State × Drain
  | 0, d, s => (s, d)
  | fuel + 1, d, s =>
    if s.eng.state ≠ .running then (s, d)
    else
      match firstServed s.eng.held with
      | none => (s, d)
      | some e =>
        let i := e.ref / Config.generationCount
        let t := releaseHeld e s
        match contextAt t i with
        | none => drainHeld fuel d t
        | some c =>
          match selectReleased i c t with
          | (u, .seized ..) => drainHeld fuel { d with released := d.released + 1, routed := d.routed + 1 } u
          | (u, .failed _) => drainHeld fuel { d with released := d.released + 1, failed := d.failed + 1 } u

/-- RESUME (R179). DESIGN CHOICE (log 36): taken in RUNNING, its DONE carries no released, routed or failed call, and the
queue length, state and reason as they stand; the rule names no figures there. -/
def doResume (s : State) : State × Reply :=
  match s.eng.state with
  | .holding => refuse .busy s
  | .stepping => refuse .busy s
  | .running => done (.resumed 0 0 0 s.eng.held.length s.eng.state s.eng.reason) s
  | .held =>
    let r := drainHeld s.eng.held.length ⟨0, 0, 0⟩ (setEngine .running .none s)
    done (.resumed r.2.released r.2.routed r.2.failed r.1.eng.held.length r.1.eng.state r.1.eng.reason) r.1

/-- RESUME (R179). -/
def execResume (tag : Tag) (s : State) : Out := request (.resume tag) 66 tag doResume s

/-! ### STEP (R182, R183) -/

/-- The engine enters STEPPING for a reference, with the reason it has (R182). -/
def enterStepping (ref : Nat) (s : State) : State :=
  setEngine .stepping s.eng.reason { s with eng := { s.eng with stepped := some ref } }

/-- The head entry is released and its selection runs within the step (R182). -/
def stepEntry (e : HeldEntry) (s : State) : State × Reply :=
  let i := e.ref / Config.generationCount
  let t := enterStepping e.ref (releaseHeld e s)
  match contextAt t i with
  | none => done (.stepped e.ref e.prio (.failed .unknownCall) (engineCheck t).eng.state (engineCheck t).eng.held.length)
      (engineCheck t)
  | some c =>
    let r := selectReleased i c t
    done (.stepped e.ref e.prio r.2 r.1.eng.state r.1.eng.held.length) r.1

/-- STEP (R182). -/
def doStep (s : State) : State × Reply :=
  if s.eng.state = .held then
    match firstServed s.eng.held with
    | none => refuse .notFound s
    | some e => stepEntry e s
  else refuse .wrongState s

/-- STEP (R182). -/
def execStep (tag : Tag) (s : State) : Out := request (.step tag) 67 tag doStep s

/-! ### TRIAL (R83, R136, R164, R184) -/

/-- The selection verdicts of a TRIAL: every position, whatever the policy, with an empty attempt list (R83). -/
def trialVerdicts (s : State) (rl : RouteList) (origin prio : Nat) : List Candidate := candidates s rl origin prio []

/-- The result that a selection would have reached from the same verdicts (R83). -/
def trialOutcome (rl : RouteList) (l : List Candidate) : SelectionOutcome := outcomeOf rl.policy (evaluated rl.policy l)

/-- The carrier and position of the choice a trial's selection made (R164). -/
def trialPayee (s : State) : Option SelectionOutcome → Option (Carrier × Nat)
  | some (.chosen position group) => some (agreement s (groupCarrier s group), position)
  | _ => none

/-- One priced side as TRIAL reports it (R164). -/
def trialSide (x : Side) : TrialSide := ⟨x.own, x.billed, x.charge⟩

/-- The reply of a TRIAL from its analysis, gap verdict, verdicts and result, with both sides priced (R164, R184;
log 32). -/
def trialView (s : State) (origin seconds : Nat) (analysis : AnalysisResult) (gap : Option GapVerdict)
    (verdicts : List Candidate) (outcome : Option SelectionOutcome) : TrialView :=
  let answer := s.time.wall
  let release := addDs answer (10 * seconds)
  let split := bandSplit s.time answer seconds
  let extra := extraBandFor s.time answer release seconds
  let payee := trialPayee s outcome
  { analysis := analysis, gap := gap, verdicts := verdicts, outcome := outcome,
    circuit := match outcome with
      | some (.chosen _ group) => (groupAt s group).bind (·.pick)
      | _ => none,
    receivable := trialSide (receivableSide (agreement s origin) (payee.map (·.1)) split extra seconds),
    payable := payee.map (fun p => trialSide (payableSide p.1 p.2 split extra seconds)),
    timeUnset := timeUnsetFlag answer release seconds,
    premium := match payee with
      | some p => premiumFlag p.1 p.2
      | none => false,
    state := s.eng.state, reason := s.eng.reason }

/-- A TRIAL runs against the state of one instant (R184). Only a defined route list goes on to the gap verdict and the
selection verdicts. -/
def runTrial (s : State) (origin : Nat) (cls : NumberClass) (digits : List Nat) (prio seconds : Nat) : TrialView :=
  let a := analyse s origin cls digits
  match a with
  | .routed _ _ list =>
    match Table.find s.sel.routeLists list with
    | some rl =>
      let l := trialVerdicts s rl origin prio
      trialView s origin seconds a (some (gapVerdict prio digits s)) l (some (trialOutcome rl l))
    | none => trialView s origin seconds a none [] none
  | _ => trialView s origin seconds a none [] none

/-- TRIAL (R184): it is taken only in HELD, and it changes nothing (log 33). -/
def doTrial (origin : Nat) (cls : Named NumberClass) (digits : List Nat) (prio duration : Nat) (s : State) :
    State × Reply :=
  if s.eng.state = .held then
    match cls with
    | none => refuse .badField s
    | some k =>
      if origin < Config.carrierCount && digitsGood 1 20 digits && prio ≤ 3 then
        done (.trial (runTrial s origin k digits prio (clamp 1 86400 duration))) s
      else refuse .badField s
  else refuse .wrongState s

/-- TRIAL (R184). -/
def execTrial (tag : Tag) (origin : Nat) (cls : Named NumberClass) (digits : List Nat) (prio duration : Nat)
    (s : State) : Out :=
  request (.trial tag origin cls digits prio duration) 68 tag (doTrial origin cls digits prio duration) s

/-! ### FAULT ACK and HELD MEASUREMENT (R186, R187) -/

/-- FAULT ACK (R186). -/
def doFaultAck (s : State) : State × Reply :=
  match s.eng.fault with
  | none => refuse .notFound s
  | some f =>
    done (.faultAck f s.eng.faultCount)
      (recheck .faultLatched { s with eng := { s.eng with fault := none, faultCount := 0 } })

/-- FAULT ACK (R186). -/
def execFaultAck (tag : Tag) (s : State) : Out := request (.faultAck tag) 69 tag doFaultAck s

/-- HELD MEASUREMENT (R187): the windows run or pause by the setting, which they read (R37, R120). -/
def doHeldMeasurement (setting : Named Bool) (s : State) : State × Reply :=
  match setting with
  | none => refuse .badField s
  | some v =>
    let t := { s with eng := { s.eng with heldMeasurement := v } }
    done (.heldMeasurement v (windowsRunning t)) t

/-- HELD MEASUREMENT (R187). -/
def execHeldMeasurement (tag : Tag) (setting : Named Bool) (s : State) : Out :=
  request (.heldMeasurement tag setting) 70 tag (doHeldMeasurement setting) s

end Sys2Proof.Machine
end

