-- ==== Sys2Proof/Machine/Tables.lean ====
section
/-! DEFINITION. The table requests of number analysis, the route selector and the gap controller (02, 04, 07). -/

namespace Sys2Proof.Machine

open Sys2Proof

/-! ### Number banks (R29 to R33) -/

/-- A request on an entry names a bank and an index in range, else BAD FIELD (R29, R30, R31). -/
def onEntry (bank : Named BankId) (index : Nat) (act : BankId → State → State × Reply) (s : State) : State × Reply :=
  match bank with
  | none => refuse .badField s
  | some k => if index < Config.bankEntries then act k s else refuse .badField s

/-- PREFIX WRITE (R29): the fields, then the key conflict of R24, then the write with the count at 0. -/
def doEntryWrite (bank : Named BankId) (index : Nat) (f : EntryFields) (s : State) : State × Reply :=
  onEntry bank index (fun k t =>
    match f.adopt with
    | none => refuse .badField t
    | some e =>
      if e.enabled && keyConflict (bankOf t.num k) index e then refuse .inUse t
      else done (.entryWritten k index e) (putEntry k index e t)) s

/-- PREFIX WRITE (R29). -/
def execPrefixWrite (tag : Tag) (bank : Named BankId) (index : Nat) (f : EntryFields) (s : State) : Out :=
  request (.prefixWrite tag bank index f) 16 tag (doEntryWrite bank index f) s

/-- The entry a read shows, with its place (R31). -/
def readReply (s : State) (k : BankId) (index : Nat) (e : NumberEntry) : State × Reply :=
  done (.entryRead k (k == s.num.active) (enabledCount (bankOf s.num k)) index e) s

/-- PREFIX READ (R31): EXACT shows the entry at the index, NEXT the enabled entry at or above it. -/
def doEntryRead (bank : Named BankId) (index : Nat) (mode : Named ReadMode) (s : State) : State × Reply :=
  onEntry bank index (fun k t =>
    match mode with
    | none => refuse .badField t
    | some .exact => readReply t k index (entryAt t k index)
    | some .next =>
      match (bankOf t.num k).find? (fun e => index ≤ e.1 && e.2.enabled) with
      | none => refuse .notFound t
      | some (i, e) => readReply t k i e) s

/-- PREFIX READ (R31). -/
def execPrefixRead (tag : Tag) (bank : Named BankId) (index : Nat) (mode : Named ReadMode) (s : State) : Out :=
  request (.prefixRead tag bank index mode) 17 tag (doEntryRead bank index mode) s

/-- PREFIX DELETE (R30): an enabled entry takes its cleared form. -/
def doEntryDelete (bank : Named BankId) (index : Nat) (s : State) : State × Reply :=
  onEntry bank index (fun k t =>
    if (entryAt t k index).enabled then done .plain (putEntry k index NumberEntry.cleared t)
    else refuse .notFound t) s

/-- PREFIX DELETE (R30). -/
def execPrefixDelete (tag : Tag) (bank : Named BankId) (index : Nat) (s : State) : Out :=
  request (.prefixDelete tag bank index) 18 tag (doEntryDelete bank index) s

/-- BANK COPY (R32): the active bank onto the standby one, whose counts are all 0. -/
def doBankCopy (s : State) : State × Reply :=
  let copy := clearCounts (bankOf s.num s.num.active)
  let t := { s with num := s.num.setBank s.num.active.other copy }
  done (.banksCopied (enabledCount t.num.bankA) (enabledCount t.num.bankB)) t

/-- BANK COPY (R32). -/
def execBankCopy (tag : Tag) (s : State) : Out := request (.bankCopy tag) 19 tag doBankCopy s

/-- The selector names the other bank (R33). -/
def swapBanks (s : State) : State × Reply :=
  done (.bankSwapped s.num.active.other (enabledCount s.num.bankA) (enabledCount s.num.bankB))
    { s with num := { s.num with active := s.num.active.other } }

/-- BANK SWAP (R33): the expected count, where one is given, must be the standby bank's. -/
def doBankSwap (expected : AnyOr Nat) (s : State) : State × Reply :=
  match expected with
  | .any => swapBanks s
  | .is n =>
    let standby := enabledCount (bankOf s.num s.num.active.other)
    if Config.bankEntries < n then refuse .badField s
    else if n ≠ standby then (s, .refuse .mismatch (.enabledCounts n standby))
    else swapBanks s

/-- BANK SWAP (R33). -/
def execBankSwap (tag : Tag) (expected : AnyOr Nat) (s : State) : Out :=
  request (.bankSwap tag expected) 20 tag (doBankSwap expected) s

/-! ### Route lists (R64, R65) -/

/-- The choices of a ROUTE LIST WRITE pass its checks (R64). -/
def choicesGood (choices : List Nat) : Bool :=
  choices.length ≤ Config.choiceCount && choices.all (· < Config.groupCount) && noRepeats choices

/-- The table of route lists after an accepted write; no choices make the list undefined (R64). -/
def writeList (t : Table RouteList) (list : Nat) (rl : RouteList) : Table RouteList :=
  if rl.choices.isEmpty then Table.del t list else Table.put t list rl

/-- ROUTE LIST WRITE (R64). -/
def doRouteListWrite (list : Nat) (policy : Named Policy) (ceiling : BitVec 16) (choices : List Nat) (s : State) :
    State × Reply :=
  match policy with
  | none => refuse .badField s
  | some p =>
    if list < Config.routeListCount && choicesGood choices then
      let lists := writeList s.sel.routeLists list ⟨p, ceiling, choices⟩
      done (.routeListWritten list (Table.find lists list) lists.length)
        { s with sel := { s.sel with routeLists := lists } }
    else refuse .badField s

/-- ROUTE LIST WRITE (R64). -/
def execRouteListWrite (tag : Tag) (list : Nat) (policy : Named Policy) (ceiling : BitVec 16) (choices : List Nat)
    (s : State) : Out :=
  request (.routeListWrite tag list policy ceiling choices) 32 tag (doRouteListWrite list policy ceiling choices) s

/-- The standing of a group now (R65). -/
def groupStanding (gr : CircuitGroup) : GroupStanding :=
  ⟨gr.record.direction, gr.count, gr.record.service, gr.idleCount, gr.meas.adopted,
    gr.record.reservations.at gr.meas.adopted⟩

/-- ROUTE LIST READ (R65). -/
def doRouteListRead (list : Nat) (s : State) : State × Reply :=
  if list < Config.routeListCount then
    match Table.find s.sel.routeLists list with
    | none => refuse .notFound s
    | some rl =>
      done (.routeList rl (rl.choices.map (fun g => (g, (groupAt s g).map groupStanding))) s.sel.routeLists.length) s
  else refuse .badField s

/-- ROUTE LIST READ (R65). -/
def execRouteListRead (tag : Tag) (list : Nat) (s : State) : Out :=
  request (.routeListRead tag list) 33 tag (doRouteListRead list) s

/-! ### Gaps (R129 to R131) -/

/-- The lifetime in seconds that a GAP ADD adopts, clamped (R129); none for PERMANENT. -/
def adoptedLifetime : Lifetime → Option Nat
  | .permanent => none
  | .seconds n => some (clamp 1 86400 n)

/-- The lifetime deadline that a GAP ADD sets (R129); none for PERMANENT. -/
def lifetimeDeadline (time : Nat) (lifetime : Lifetime) : Option Nat :=
  (adoptedLifetime lifetime).map (fun n => time + n * 10)

/-- The entry that a GAP ADD replaces, in its slot (R129). -/
def replacedGap (time interval : Nat) (lifetime : Option Nat) (e : GapEntry) : GapEntry :=
  { e.withInterval time interval with lifetime := lifetime, origin := .hostSet }

/-- GAP ADD (R129). -/
def doGapAdd (digits : List Nat) (interval : Nat) (lifetime : Lifetime) (s : State) : State × Reply :=
  if digitsGood 1 16 digits then
    let d := lifetimeDeadline (now s) lifetime
    let n := clamp 1 600 interval
    match gapOfDigits s digits with
    | some (slot, e) =>
      let t := putGap slot (replacedGap (now s) n d e) s
      done (.gapAdded slot digits n (adoptedLifetime lifetime) true) { t with gap := { t.gap with autoList := t.gap.autoList.erase slot } }
    | none =>
      match freeGapSlot s with
      | none => (s, .refuse .tableFull (.gapEntries (countOrigin .hostSet s) (countOrigin .automatic s)))
      | some slot =>
        done (.gapAdded slot digits n (adoptedLifetime lifetime) false) (putGap slot (newGap digits n .hostSet d s) s)
  else refuse .badField s

/-- GAP ADD (R129). -/
def execGapAdd (tag : Tag) (digits : List Nat) (interval : Nat) (lifetime : Lifetime) (s : State) : Out :=
  request (.gapAdd tag digits interval lifetime) 40 tag (doGapAdd digits interval lifetime) s

/-- GAP REMOVE (R130). -/
def doGapRemove (digits : List Nat) (s : State) : State × Reply :=
  if digitsGood 1 16 digits then
    match gapOfDigits s digits with
    | none => refuse .notFound s
    | some (slot, e) => done (.gapRemoved slot e) (removeGap slot s)
  else refuse .badField s

/-- GAP REMOVE (R130). -/
def execGapRemove (tag : Tag) (digits : List Nat) (s : State) : Out :=
  request (.gapRemove tag digits) 41 tag (doGapRemove digits) s

/-- A refusal of GAP READ, which carries the table figures as every reply to it does (R131). -/
def refuseGapRead (c : Cause) (s : State) : State × Reply :=
  (s, .refuse c (.gapTable s.gap.slots.length (countOrigin .hostSet s) (countOrigin .automatic s)))

/-- The reply of GAP READ with its table figures (R131). -/
def gapsReply (l : List (Nat × GapEntry)) (s : State) : State × Reply :=
  if l.isEmpty then refuseGapRead .notFound s
  else
    done (.gaps (l.map (fun e => gapView s e.1 e.2)) s.gap.slots.length (countOrigin .hostSet s)
      (countOrigin .automatic s)) s

/-- GAP READ (R131). -/
def doGapRead (key : GapKey) (s : State) : State × Reply :=
  match key with
  | .byDigits digits =>
    if digitsGood 1 16 digits then gapsReply (gapOfDigits s digits).toList s else refuseGapRead .badField s
  | .fromSlot slot =>
    if slot < Config.gapSlots then
      gapsReply ((s.gap.slots.filter (fun e => slot ≤ e.1)).take Config.gapReadEntries) s
    else refuseGapRead .badField s

/-- GAP READ (R131). -/
def execGapRead (tag : Tag) (key : GapKey) (s : State) : Out := request (.gapRead tag key) 42 tag (doGapRead key) s

end Sys2Proof.Machine
end

