-- ==== Sys2Proof/Machine/Dispatch.lean ====
section
/-! DEFINITION. The dispatch of a command to its meaning: one arm for each row of the opcode table. -/

namespace Sys2Proof.Machine

open Sys2Proof

/-- The effect of a command on everything but the queue of waiting commands. -/
def exec (i : Instr) (s : State) : Host.Outcome State Fault Refusal :=
  match i with
  | .setup tag callId group circuit numClass prio digits => Sys2Proof.Machine.execSetup tag callId group circuit numClass prio digits s
  | .proceed tag ref group circuit => Sys2Proof.Machine.execProceed tag ref group circuit s
  | .answer tag ref => Sys2Proof.Machine.execAnswer tag ref s
  | .crankback tag ref group circuit cause => Sys2Proof.Machine.execCrankback tag ref group circuit cause s
  | .release tag ref => Sys2Proof.Machine.execRelease tag ref s
  | .readContext tag ref => Sys2Proof.Machine.execReadContext tag ref s
  | .prefixWrite tag bank index fields => Sys2Proof.Machine.execPrefixWrite tag bank index fields s
  | .prefixRead tag bank index mode => Sys2Proof.Machine.execPrefixRead tag bank index mode s
  | .prefixDelete tag bank index => Sys2Proof.Machine.execPrefixDelete tag bank index s
  | .bankCopy tag => Sys2Proof.Machine.execBankCopy tag s
  | .bankSwap tag expected => Sys2Proof.Machine.execBankSwap tag expected s
  | .groupDefine tag group fields => Sys2Proof.Machine.execGroupDefine tag group fields s
  | .groupService tag group service => Sys2Proof.Machine.execGroupService tag group service s
  | .groupRead tag group range => Sys2Proof.Machine.execGroupRead tag group range s
  | .circuitBlock tag group circuit => Sys2Proof.Machine.execCircuitBlock tag group circuit s
  | .circuitUnblock tag group circuit => Sys2Proof.Machine.execCircuitUnblock tag group circuit s
  | .readGroupCounters tag group => Sys2Proof.Machine.execReadGroupCounters tag group s
  | .routeListWrite tag list policy ceiling choices => Sys2Proof.Machine.execRouteListWrite tag list policy ceiling choices s
  | .routeListRead tag list => Sys2Proof.Machine.execRouteListRead tag list s
  | .gapAdd tag digits interval lifetime => Sys2Proof.Machine.execGapAdd tag digits interval lifetime s
  | .gapRemove tag digits => Sys2Proof.Machine.execGapRemove tag digits s
  | .gapRead tag key => Sys2Proof.Machine.execGapRead tag key s
  | .setTime tag date time => Sys2Proof.Machine.execSetTime tag date time s
  | .holidayWrite tag mask holidays => Sys2Proof.Machine.execHolidayWrite tag mask holidays s
  | .bandScheduleWrite tag dayClass entries => Sys2Proof.Machine.execBandScheduleWrite tag dayClass entries s
  | .carrierWrite tag carrier fields => Sys2Proof.Machine.execCarrierWrite tag carrier fields s
  | .carrierRead tag carrier => Sys2Proof.Machine.execCarrierRead tag carrier s
  | .readRecords tag count => Sys2Proof.Machine.execReadRecords tag count s
  | .discardRecords tag first count => Sys2Proof.Machine.execDiscardRecords tag first count s
  | .hold tag => Sys2Proof.Machine.execHold tag s
  | .forceHold tag => Sys2Proof.Machine.execForceHold tag s
  | .resume tag => Sys2Proof.Machine.execResume tag s
  | .step tag => Sys2Proof.Machine.execStep tag s
  | .trial tag origin numClass digits prio duration => Sys2Proof.Machine.execTrial tag origin numClass digits prio duration s
  | .faultAck tag => Sys2Proof.Machine.execFaultAck tag s
  | .heldMeasurement tag setting => Sys2Proof.Machine.execHeldMeasurement tag setting s
  | .status tag clear => Sys2Proof.Machine.execStatus tag clear s
  | .noticeEnable tag classes => Sys2Proof.Machine.execNoticeEnable tag classes s
  | .noticeDisable tag classes => Sys2Proof.Machine.execNoticeDisable tag classes s
  | .deviceSettings tag fields => Sys2Proof.Machine.execDeviceSettings tag fields s
  | .warmRestart tag => Sys2Proof.Machine.execWarmRestart tag s
  | .coldRestart tag => Sys2Proof.Machine.execColdRestart tag s
  | .reject frame => Sys2Proof.Machine.execReject frame s
  | .resetAsserted => Sys2Proof.Machine.execResetAsserted s
  | .resetReleased => Sys2Proof.Machine.execResetReleased s
  | .frameReceived bytes => Sys2Proof.Machine.execFrameReceived bytes s
  | .interByteTimeout => Sys2Proof.Machine.execInterByteTimeout s
  | .messageSent => Sys2Proof.Machine.execMessageSent s
  | .syncPairFound => Sys2Proof.Machine.execSyncPairFound s
  | .badLength length => Sys2Proof.Machine.execBadLength length s
  | .monotonicAdvance => Sys2Proof.Machine.execMonotonicAdvance s
  | .guardExpiry group circuit => Sys2Proof.Machine.execGuardExpiry group circuit s
  | .attemptTimerExpiry context => Sys2Proof.Machine.execAttemptTimerExpiry context s
  | .holdWaitExpiry context => Sys2Proof.Machine.execHoldWaitExpiry context s
  | .measurementWindowExpiry group => Sys2Proof.Machine.execMeasurementWindowExpiry group s
  | .destinationWindowExpiry => Sys2Proof.Machine.execDestinationWindowExpiry s
  | .gapDeadline slot => Sys2Proof.Machine.execGapDeadline slot s
  | .gapLifetimeExpiry slot => Sys2Proof.Machine.execGapLifetimeExpiry slot s

end Sys2Proof.Machine
end

