-- ==== Sys2Proof/Safety.lean ====
section
/-! DEFINITION. What statements speak of: when a request can be taken, what an event leaves of the link, which commands
are requests or reads, and the properties of the state that every event keeps. -/

namespace Sys2Proof.Machine

open Sys2Proof

/-! ### Taking a request (R192) -/

/-- The frame at the head of the input buffer is the one meant, or the buffer is empty and the frame arrives (log 5). -/
def Link.offers (isMine : Frame → Bool) (l : Link) : Bool :=
  match l.inBuf with
  | [] => true
  | f :: _ => isMine f

/-- A request can be taken now: the part is not in reset, the places it needs are free, its frame is next. -/
def canTake (isMine : Frame → Bool) (places : Nat) (s : State) : Bool :=
  !s.link.resetLine && places ≤ s.link.free && s.link.offers isMine

/-- A typed request can be taken now, and its tag is not 0. -/
def ready (kind : Byte) (tag : Tag) (s : State) : Bool :=
  canTake (isRequest kind tag) (placesNeeded kind) s && tag != 0

/-- The link once a frame has left the input buffer. -/
def Link.taken (l : Link) : Link := { l with inBuf := l.inBuf.tail }

/-- The link after a request that produced its reply and nothing else. -/
def Link.answered (tag : Tag) (r : Reply) (l : Link) : Link :=
  { l with inBuf := l.inBuf.tail, outQueue := l.outQueue ++ [.reply tag r] }

/-- The state after a request that changed nothing but the link, which holds its reply. -/
abbrev State.answers (s : State) (tag : Tag) (r : Reply) : State := { s with link := s.link.answered tag r }

/-- The message is a reply. -/
def Message.isReply : Message → Bool
  | .reply .. => true
  | _ => false

/-- The message is a notice of a class. -/
def Message.isNotice : Message → Bool
  | .notice _ => true
  | _ => false

/-- Between `l` and `m` the link has only gained messages that satisfy `p`, lost notices and changed its set of
conditions. -/
structure Link.GainsOnly (p : Message → Bool) (l m : Link) : Prop where
  rx : m.rx = l.rx
  inBuf : m.inBuf = l.inBuf
  reserved : m.reserved = l.reserved
  checkErrors : m.checkErrors = l.checkErrors
  overruns : m.overruns = l.overruns
  rejects : m.rejects = l.rejects
  enabled : m.enabled = l.enabled
  resetLine : m.resetLine = l.resetLine
  txd : m.txd = l.txd
  queue : ∃ ms, m.outQueue = l.outQueue ++ ms ∧ ∀ x ∈ ms, p x = true

/-- The event of a taken request: notices and call reports, then one reply, which bears the request's tag. -/
def AnswersWith (tag : Tag) (r : Reply) (s t : State) : Prop :=
  ∃ m : Link, s.link.taken.GainsOnly (fun x => !x.isReply) m ∧ t.link = m.enqueue (.reply tag r)

/-- The event of a taken request that makes no call report: notices, then one reply with the request's tag. -/
def NoticesThenReply (tag : Tag) (r : Reply) (s t : State) : Prop :=
  ∃ m : Link, s.link.taken.GainsOnly Message.isNotice m ∧ t.link = m.enqueue (.reply tag r)

/-- The link after an event that answers no request. -/
def Quiet (s t : State) : Prop := s.link.GainsOnly (fun x => !x.isReply) t.link

/-- The event took one frame and sent exactly one reply, which bears the tag; nothing stays reserved (R192). -/
def OneReply (tag : Tag) (s t : State) : Prop :=
  t.link.inBuf = s.link.inBuf.tail ∧ t.link.reserved = 0 ∧
  ∃ ms r ns, t.link.outQueue = s.link.outQueue ++ ms ++ .reply tag r :: ns ∧ ∀ m ∈ ms ++ ns, m.isReply = false

/-- The engine after contexts have left ROUTED (R177, R183): a HOLDING engine with none left ROUTED is HELD, and so is a
STEPPING one whose stepped context is not ROUTED, each with the reason it had; else the engine is as it was. -/
def EngineFollows (s t : State) : Prop :=
  t.eng =
    (match s.eng.state with
    | .holding => if routedCount t = 0 then { s.eng with state := .held, stepped := none } else s.eng
    | .stepping =>
      if (match s.eng.stepped with | some ref => refRouted t ref | none => false) then s.eng
      else { s.eng with state := .held, stepped := none }
    | .running => s.eng
    | .held => s.eng)

/-- The state a released circuit takes (R49): BLOCKED after a fault or with its block-pending mark set, else GUARD where
the group has a guard interval, else IDLE. -/
def releasedAs (time guard : Nat) (fault pending : Bool) : Circuit :=
  if fault || pending then .blocked else if 0 < guard then .guard (time + guard) else .idle time

/-- A circuit that was OUT or IN before has been released (R49). -/
def CircuitReleased (g k : Nat) (fault : Bool) (s t : State) : Prop :=
  ∀ gr q, groupAt s g = some gr → gr.circuits[k]? = some q → q.isBusy = true →
    ∃ gr', groupAt t g = some gr' ∧
      gr'.circuits[k]? = some (releasedAs s.time.count gr.record.guard fault q.blockPending)

/-- The reply that a selection comes to when it is asked for in a state for a reference with a route list, an inbound
carrier, a priority class and the groups already tried (R90): the attempt-limit test (R67), the engine, which lets it
run, queues it or turns it away (R175), then the candidates and the list's policy (R69, R76 to R80), and the circuit a
hunt takes in the group chosen (R53 to R56). -/
def selectionReply (u : State) (ref list inCarrier prio : Nat) (tried : List Nat) : Reply :=
  if u.sel.crankbackLimit < tried.length then .refuse .routesExhausted .none
  else if u.eng.state = .running ∨ u.eng.state = .stepping ∧ u.eng.stepped = some ref then
    match Table.find u.sel.routeLists list with
    | none => .refuse .tableFault .none
    | some rl =>
      let l := candidates u rl inCarrier prio tried
      if l = [] then .refuse .routesExhausted .none
      else
        match outcomeOf rl.policy (evaluated rl.policy l) with
        | .chosen position group =>
          match (groupAt u group).bind (·.pick) with
          | some circuit => .route ref group circuit position (tried.length + 1)
          | none => .refuse .congested .none
        | .fault .. => .refuse .tableFault .none
        | .none cause => .refuse cause .none
  else if u.eng.held.length < 64 then .queued ref
  else .refuse .engineHeld .none

/-- Every group keeps its record, its counters and its rotate pointer, and every circuit but those listed stands as it
did. -/
def OnlyCircuitsChange (l : List (Nat × Nat)) (s t : State) : Prop :=
  ∀ g, (groupAt s g = none → groupAt t g = none) ∧
    ∀ gr, groupAt s g = some gr →
      ∃ gr', groupAt t g = some gr' ∧ gr'.record = gr.record ∧ gr'.counters = gr.counters ∧
        gr'.rotate = gr.rotate ∧ gr'.circuits.length = gr.circuits.length ∧
        ∀ k, (g, k) ∉ l → gr'.circuits[k]? = gr.circuits[k]?

/-- The blocks that handle no call stay as they are. -/
def OtherBlocksKept (s t : State) : Prop :=
  t.num = s.num ∧ t.sel = s.sel ∧ t.gap = s.gap ∧ t.time = s.time ∧ t.rate = s.rate ∧ t.pending = s.pending

/-- The kind and tag of a request that is given by its named fields (11, section 11.8; log 6). -/
def requestOf : Instr → Option (Byte × Tag)
  | .proceed tag .. => some (2, tag)
  | .answer tag .. => some (3, tag)
  | .crankback tag .. => some (4, tag)
  | .release tag .. => some (5, tag)
  | .readContext tag .. => some (6, tag)
  | .prefixWrite tag .. => some (16, tag)
  | .prefixRead tag .. => some (17, tag)
  | .prefixDelete tag .. => some (18, tag)
  | .bankCopy tag => some (19, tag)
  | .bankSwap tag .. => some (20, tag)
  | .groupDefine tag .. => some (24, tag)
  | .groupService tag .. => some (25, tag)
  | .groupRead tag .. => some (26, tag)
  | .circuitBlock tag .. => some (27, tag)
  | .circuitUnblock tag .. => some (28, tag)
  | .readGroupCounters tag .. => some (29, tag)
  | .routeListWrite tag .. => some (32, tag)
  | .routeListRead tag .. => some (33, tag)
  | .gapAdd tag .. => some (40, tag)
  | .gapRemove tag .. => some (41, tag)
  | .gapRead tag .. => some (42, tag)
  | .setTime tag .. => some (48, tag)
  | .holidayWrite tag .. => some (49, tag)
  | .bandScheduleWrite tag .. => some (50, tag)
  | .carrierWrite tag .. => some (51, tag)
  | .carrierRead tag .. => some (52, tag)
  | .readRecords tag .. => some (56, tag)
  | .discardRecords tag .. => some (57, tag)
  | .hold tag => some (64, tag)
  | .forceHold tag => some (65, tag)
  | .resume tag => some (66, tag)
  | .step tag => some (67, tag)
  | .trial tag .. => some (68, tag)
  | .faultAck tag => some (69, tag)
  | .heldMeasurement tag .. => some (70, tag)
  | .status tag .. => some (80, tag)
  | .noticeEnable tag .. => some (81, tag)
  | .noticeDisable tag .. => some (82, tag)
  | .deviceSettings tag .. => some (83, tag)
  | .warmRestart tag => some (84, tag)
  | .coldRestart tag => some (85, tag)
  | .setup .. | .reject .. | .resetAsserted | .resetReleased | .frameReceived .. | .interByteTimeout
  | .messageSent | .syncPairFound | .badLength .. | .monotonicAdvance | .guardExpiry .. | .attemptTimerExpiry ..
  | .holdWaitExpiry .. | .measurementWindowExpiry .. | .destinationWindowExpiry | .gapDeadline ..
  | .gapLifetimeExpiry .. => none

/-- The requests that read and change nothing (R18, R31, R44, R65, R131, R151, R168, R184, R197). -/
def readsOnly : Instr → Bool
  | .readContext .. => true
  | .prefixRead .. => true
  | .groupRead .. => true
  | .routeListRead .. => true
  | .gapRead .. => true
  | .carrierRead .. => true
  | .readRecords .. => true
  | .trial .. => true
  | .status _ clear => clear != some true
  | _ => false

/-- The commands that can make the cold restart (R200). -/
def isCold : Instr → Bool
  | .coldRestart _ => true
  | .resetReleased => true
  | _ => false

/-! ### Properties that every event keeps -/

/-- No entry of a table equals what an unlisted number stands for. -/
def Table.lists {α : Type} [DecidableEq α] (d : α) (t : Table α) : Bool := t.all (fun e => e.2 != d)

/-- Every table stands in its canonical form: numbers rise strictly and no entry is one an unlisted number stands
for. -/
def TablesCanonical (s : State) : Prop :=
  Table.wf s.ctx.contexts = true ∧
  (Table.wf s.ctx.generations = true ∧ Table.lists 0 s.ctx.generations = true) ∧
  (Table.wf s.num.bankA = true ∧ Table.lists NumberEntry.cleared s.num.bankA = true) ∧
  (Table.wf s.num.bankB = true ∧ Table.lists NumberEntry.cleared s.num.bankB = true) ∧
  Table.wf s.groups = true ∧ Table.wf s.sel.routeLists = true ∧ Table.wf s.gap.slots = true ∧
  (Table.wf s.rate.carriers = true ∧ Table.lists Carrier.zero s.rate.carriers = true)

/-- The idle list of a group holds exactly its IDLE circuits, each once (R45, R46). -/
def CircuitGroup.IdleListExact (gr : CircuitGroup) : Prop :=
  gr.idleList.Nodup ∧ ∀ c, c ∈ gr.idleList ↔ gr.idleAt c = true

/-- Every group's idle list is exact, in a canonical group table (R45, R46). -/
def IdleListsExact (s : State) : Prop :=
  Table.wf s.groups = true ∧ ∀ g gr, groupAt s g = some gr → gr.IdleListExact

/-- The bounded stores are within their bounds (R40, R41, R166, R180, R191, R193), nothing is reserved between events
(R192, R193), and while a call report waits no place is free (R17, R193). -/
def StoresBounded (s : State) : Prop :=
  s.link.inBuf.length ≤ Config.inPlaces ∧
  s.link.outQueue.length ≤ Config.outPlaces ∧
  s.link.reserved = 0 ∧
  (s.ctx.reports ≠ [] → s.link.free = 0) ∧
  s.rate.queue.length ≤ Config.settlementPlaces ∧
  s.eng.held.length ≤ Config.heldPlaces

/-- The engine's items agree (R174): the reason is NONE exactly in RUNNING, a stepped context stands exactly in
STEPPING, and the held queue is empty in RUNNING (R179). -/
def EngineCoherent (s : State) : Prop :=
  (s.eng.reason = .none ↔ s.eng.state = .running) ∧
  (s.eng.stepped.isSome = true ↔ s.eng.state = .stepping) ∧
  (s.eng.state = .running → s.eng.held = [])

/-- Generations are 0 to 7, the free list holds contexts that are not in use and hold no pending report, each once (R2,
R17), and every entry of the held queue is a context in QUEUED (R180). -/
def ContextsCoherent (s : State) : Prop :=
  Table.wf s.ctx.contexts = true ∧
  (∀ i, generation s i < Config.generationCount) ∧
  s.ctx.freeList.Nodup ∧
  (∀ i ∈ s.ctx.freeList, contextAt s i = none ∧ s.ctx.reports.any (fun e => e.1 == i) = false) ∧
  (∀ e ∈ s.eng.held, ∃ c, contextOfRef s e.ref = some (e.ref / Config.generationCount, c) ∧ c.state = .queued)

/-- The set of standing conditions is the one the state calls for (R196, 11 section 11.6). -/
def ConditionsTrue (s : State) : Prop :=
  s.link.conditions = Condition.all.filter (fun c => holdsNow c s)

/-- No bank holds two enabled entries with identical keys (R24). -/
def KeysUnique (s : State) : Prop :=
  ∀ (k : BankId) (i j : Nat) (e f : NumberEntry),
    Table.find (bankOf s.num k) i = some e → Table.find (bankOf s.num k) j = some f →
    e.enabled = true → f.enabled = true → sameKey e f = true → i = j

/-- The seven settings stand in their ranges, the bulk reserve at or above the ordinary one (R6, R37, R66, R171,
R180). -/
def SettingsInRange (s : State) : Prop :=
  s.ctx.ordinaryReserve ≤ s.ctx.bulkReserve ∧ s.ctx.bulkReserve ≤ 4096 ∧
  5 ≤ s.num.destLength ∧ s.num.destLength ≤ 60 ∧
  s.sel.crankbackLimit ≤ 7 ∧
  20 ≤ s.sel.attemptTimeout ∧ s.sel.attemptTimeout ≤ 600 ∧
  1 ≤ s.eng.holdWait ∧ s.eng.holdWait ≤ 100 ∧
  1 ≤ s.rate.watermark ∧ s.rate.watermark ≤ 2048

/-- A group record's figures stand in their ranges and orders (R40, R107). -/
def GroupRecord.InRange (r : GroupRecord) : Prop :=
  r.carrier < Config.carrierCount ∧ r.guard ≤ 100 ∧
  1 ≤ r.window ∧ r.window ≤ 300 ∧
  1 ≤ r.occupancy.l1 ∧ r.occupancy.l1 ≤ r.occupancy.l2 ∧ r.occupancy.l2 ≤ r.occupancy.l3 ∧ r.occupancy.l3 ≤ 100 ∧
  1 ≤ r.overflow.l1 ∧ r.overflow.l1 ≤ r.overflow.l2 ∧ r.overflow.l2 ≤ r.overflow.l3 ∧ r.overflow.l3 ≤ 1000 ∧
  1 ≤ r.rise ∧ r.rise ≤ 8 ∧ 1 ≤ r.fall ∧ r.fall ≤ 8 ∧
  r.reservations.l0 ≤ r.reservations.l1 ∧ r.reservations.l1 ≤ r.reservations.l2 ∧
  r.reservations.l2 ≤ r.reservations.l3 ∧ r.reservations.l3 ≤ 511 ∧
  (r.direction = .bothway ↔ r.parity ≠ .none)

/-- Every group is one that GROUP DEFINE can leave (R40, R41, R107): id, figures, circuit counts in range. -/
def GroupsInRange (s : State) : Prop :=
  Table.wf s.groups = true ∧
  (∀ g gr, groupAt s g = some gr → g < Config.groupCount ∧ gr.record.InRange ∧ gr.count ≤ Config.groupCircuits) ∧
  totalCircuits s ≤ Config.totalCircuits

/-- The gap table is coherent (R125, R126): slots in range, digits unique, the automatic list exactly the
AUTOMATIC slots, each once; a PERMANENT entry is HOST SET; a CLOSED entry opens one interval after its last pass. -/
def GapsCoherent (s : State) : Prop :=
  Table.wf s.gap.slots = true ∧
  (∀ i e, Table.find s.gap.slots i = some e →
    i < Config.gapSlots ∧
    (e.lifetime = none → e.origin = .hostSet) ∧
    (∀ d, e.gapDeadline = some d → ∃ p, e.lastPass = some p ∧ d = p + e.interval)) ∧
  (∀ i j e f, Table.find s.gap.slots i = some e → Table.find s.gap.slots j = some f → e.digits = f.digits → i = j) ∧
  s.gap.autoList.Nodup ∧
  (∀ i, i ∈ s.gap.autoList ↔ ∃ e, Table.find s.gap.slots i = some e ∧ e.origin = .automatic)

/-- The attempt list of a context (R4): 0 to 8 records, no group twice, only the newest may hold a circuit; and in
QUEUED none does and the list has room for another. -/
def Context.AttemptsGood (c : Context) : Prop :=
  c.attempts.length ≤ 8 ∧
  (c.attempts.map (·.group)).Nodup ∧
  (∀ a ∈ c.attempts.dropLast, a.holdsCircuit = false) ∧
  (c.state = .queued → c.attempts.length < 8 ∧ ∀ a ∈ c.attempts, a.holdsCircuit = false)

/-- Every context's attempt list is good (R4). -/
def AttemptsGood (s : State) : Prop := ∀ i c, contextAt s i = some c → c.AttemptsGood

/-- The records of the settlement queue bear consecutive sequence numbers, and the counter holds the next (R166). -/
def RecordsConsecutive (s : State) : Prop :=
  ∀ k r, s.rate.queue[k]? = some r → r.seq + BitVec.ofNat 32 (s.rate.queue.length - k) = s.rate.seq

/-- The CLOSING list holds exactly the contexts in CLOSING, each once and each with its record, and there are any only
while the settlement queue is full (R15, R167). -/
def ClosingCoherent (s : State) : Prop :=
  s.ctx.closing.Nodup ∧
  (∀ i, i ∈ s.ctx.closing ↔ ∃ c, contextAt s i = some c ∧ c.state = .closing) ∧
  (∀ i c, contextAt s i = some c → c.state = .closing → c.pendingRecord.isSome = true) ∧
  (s.ctx.closing ≠ [] → Config.settlementPlaces ≤ s.rate.queue.length)

end Sys2Proof.Machine
end

