-- ==== Sys2Proof/Certificates/Slice0/Obligations.lean ====
section
/-! DEFINITION. The statements about the part, for the provers. Each is a Prop; none is proved here. -/

open Sys2Proof Sys2Proof.Machine

/-! ### The machine -/

/-- A step runs the command at the front of the queue on the state with the queue's rest. -/
def Obligations.StepRunsTheFrontCommand : Prop :=
  ∀ (c : Instr) (rest : List Instr) (s : State),
    step { s with pending := c :: rest } = exec c { s with pending := rest }

/-- Every command answers a next state: the spec names no event that stops the part (00 section 3.4, 10 section 10.6). -/
def Obligations.EveryCommandAnswersNext : Prop :=
  ∀ (c : Instr) (s : State), ∃ t, exec c s = .next t

/-- R192: every request frame taken yields exactly one reply bearing its tag, and nothing stays reserved. COLD RESTART,
whose reply leaves at once, is apart (ColdRestartResetsEveryBlock). -/
def Obligations.TakenRequestsYieldOneReply : Prop :=
  (∀ (c : Instr) (kind : Byte) (tag : Tag) (s t : State), requestOf c = some (kind, tag) → isCold c = false →
    s.link.reserved = 0 → canTake (isRequest kind tag) (placesNeeded kind) s = true → exec c s = .next t →
    OneReply tag s t) ∧
  (∀ (tag : Tag) (callId : CallId) (group circuit : BitVec 16) (numClass prio : Byte) (digits : List Byte)
    (s t : State), s.link.reserved = 0 →
    canTake (· == setupFrame tag callId group circuit numClass prio digits) 1 s = true →
    exec (.setup tag callId group circuit numClass prio digits) s = .next t → OneReply tag s t) ∧
  (∀ (f : Frame) (reason : RejectReason) (s t : State), s.link.reserved = 0 → frameFault f = some reason →
    canTake (· == f) (placesNeeded f.kind) s = true → exec (.reject f) s = .next t → OneReply f.tag s t)

/-! ### The link: REJECT, lines, receiver, sending -/

/-- R192: a taken frame that fails one of the three tests is answered REJECT with its kind and the reason, the reject
counter rises by one, saturating (R197), and no other block changes; so is every request by fields whose tag is 0
(log 28). -/
def Obligations.RejectedFramesReachNoBlock : Prop :=
  (∀ (f : Frame) (reason : RejectReason) (s : State), s.link.reserved = 0 → frameFault f = some reason →
    canTake (· == f) (placesNeeded f.kind) s = true →
    exec (.reject f) s = .next { s with
      link := { s.link.answered f.tag (.reject f.kind reason) with
        rejects := min 4294967295 (s.link.rejects + 1) } }) ∧
  ∀ (c : Instr) (kind : Byte) (s : State), s.link.reserved = 0 → requestOf c = some (kind, 0) →
    canTake (isRequest kind 0) (placesNeeded kind) s = true →
    exec c s = .next { s with
      link := { s.link.answered 0 (.reject kind .tagZero) with
        rejects := min 4294967295 (s.link.rejects + 1) } }

/-- R200: while the RESET line is asserted commands of requests, arriving bytes and sends change nothing, LINK READY and
ATTN are deasserted; its assertion changes nothing else. R191, R192: a request, SETUP or rejected frame that cannot be
taken now waits: where its frame stands in the input buffer nothing changes; else the frame joins the tail, or, with 64
frames held, is discarded and counted as an overrun. That the command stands for the frame's arrival, and a later one
for its taking, is log 5 and log 7; the body that spells a request's fields is free (log 6). REJECT of a frame that
passes the three tests is no event. -/
def Obligations.UntakenRequestsWait : Prop :=
  ((∀ s : State, exec .resetAsserted s = .next { s with link := { s.link with resetLine := true } }) ∧
   ∀ s : State, s.link.resetLine = true →
     s.linkReady = false ∧ s.attn = false ∧ exec .messageSent s = .next s ∧
     (∀ bytes, exec (.frameReceived bytes) s = .next s) ∧ exec .syncPairFound s = .next s ∧
     (∀ n, exec (.badLength n) s = .next s) ∧
     (∀ c kind tag, requestOf c = some (kind, tag) → exec c s = .next s) ∧
     (∀ tag callId group circuit numClass prio digits,
       exec (.setup tag callId group circuit numClass prio digits) s = .next s) ∧
     ∀ f, exec (.reject f) s = .next s) ∧
  (∀ (c : Instr) (isMine : Frame → Bool) (f : Frame) (s : State),
    ((∃ kind tag, requestOf c = some (kind, tag) ∧ f = ⟨kind, tag, Config.requestBody c⟩ ∧
        isMine = isRequest kind tag) ∨
      (∃ tag callId group circuit numClass prio digits, c = .setup tag callId group circuit numClass prio digits ∧
        f = setupFrame tag callId group circuit numClass prio digits ∧ isMine = (· == f)) ∨
      c = .reject f ∧ frameFault f ≠ none ∧ isMine = (· == f)) →
    s.link.resetLine = false → canTake isMine (placesNeeded f.kind) s = false →
    exec c s = .next
      (if s.link.inBuf.any isMine = true then s
      else if s.link.inBuf.length < 64 then { s with link := { s.link with inBuf := s.link.inBuf ++ [f] } }
      else { s with link := { s.link with overruns := min 4294967295 (s.link.overruns + 1) } })) ∧
  ∀ (f : Frame) (s : State), frameFault f = none → exec (.reject f) s = .next s

/-- R190: a hunting receiver that finds the sync pair assembles; a bad length is counted and the receiver hunts again
from the byte after the first sync byte, where the two length bytes may themselves be a sync pair (log 21); a partial
frame is discarded and counted once 10 ds have passed since its last byte, by INTER-BYTE TIMEOUT, which does nothing
before (log 2), or by the next byte, which the receiver then meets hunting (log 21). R190, R191: the last bytes of a
frame with a good check send it to the tail of the input buffer, or, with 64 frames held, discard it and count an
overrun; a bad check discards it and counts a check error. In each case the receiver hunts from the byte after the
frame. -/
def Obligations.ReceiverTurnsBytesIntoFrames : Prop :=
  ((∀ (saw : Bool) (s : State), s.link.resetLine = false → s.link.rx = .hunting saw →
     exec .syncPairFound s = .next { s with link := { s.link with rx := .assembling [] s.time.count } }) ∧
   (∀ (n : BitVec 16) (last : Nat) (s : State), s.link.resetLine = false → s.link.rx = .assembling [] last →
     s.time.count < last + 10 → 1024 < n.toNat →
     exec (.badLength n) s = .next { s with link := { s.link with
       checkErrors := min 4294967295 (s.link.checkErrors + 1),
       rx := if n = 0xD26C#16 then .assembling [] s.time.count else .hunting (n.extractLsb' 0 8 == 0xD2#8) } }) ∧
   (∀ (bytes : List Byte) (last : Nat) (s : State), s.link.rx = .assembling bytes last →
     exec .interByteTimeout s = .next (if last + 10 ≤ s.time.count then
       { s with link := { s.link with
         rx := .hunting false, checkErrors := min 4294967295 (s.link.checkErrors + 1) } } else s)) ∧
   ∀ (old : List Byte) (last : Nat) (b : Byte) (bytes : List Byte) (s t : State), s.link.resetLine = false →
     s.link.rx = .assembling old last → last + 10 ≤ s.time.count →
     t = { s with link := { s.link with
       rx := .hunting false, checkErrors := min 4294967295 (s.link.checkErrors + 1) } } →
     exec (.frameReceived (b :: bytes)) s = exec (.frameReceived (b :: bytes)) t ∧
     exec .syncPairFound s = exec .syncPairFound t) ∧
  ∀ (old bytes : List Byte) (hi lo : Byte) (last : Nat) (body : List Byte) (kind t1 t0 c1 c0 : Byte) (s : State),
    s.link.resetLine = false → s.link.rx = .assembling old last → s.time.count < last + 10 →
    old ++ bytes = hi :: lo :: kind :: t1 :: t0 :: (body ++ [c1, c0]) → bytes ≠ [] →
    body.length = (word16 hi lo).toNat → body.length ≤ 1024 →
    exec (.frameReceived bytes) s = .next
      (if crcOf (hi :: lo :: kind :: t1 :: t0 :: body) = word16 c1 c0 then
        if s.link.inBuf.length < 64 then
          { s with link := { s.link with
            rx := .hunting false, inBuf := s.link.inBuf ++ [⟨kind, word16 t1 t0, body⟩] } }
        else { s with link := { s.link with
          rx := .hunting false, overruns := min 4294967295 (s.link.overruns + 1) } }
      else { s with link := { s.link with
        rx := .hunting false, checkErrors := min 4294967295 (s.link.checkErrors + 1) } })

/-- R193: the message at the head has been sent, which the model's own record notes (log 9); its place goes first to the
call report of the context at the head of the pending-report list, and a context that is no longer in use then joins
the tail of the free list (R2, R17). -/
def Obligations.SentMessagesFreeTheirPlace : Prop :=
  ∀ (m : Message) (rest : List Message) (s : State), s.link.resetLine = false → s.link.outQueue = m :: rest →
    s.link.outQueue.length + s.link.reserved ≤ 512 →
    ∃ t, exec .messageSent s = .next t ∧ t.link.txd = s.link.txd ++ [m] ∧
      t.num = s.num ∧ t.groups = s.groups ∧ t.sel = s.sel ∧ t.gap = s.gap ∧ t.time = s.time ∧ t.rate = s.rate ∧
      t.eng = s.eng ∧ t.pending = s.pending ∧ t.ctx.contexts = s.ctx.contexts ∧
      match s.ctx.reports with
      | [] => t.link.outQueue = rest ∧ t.ctx = s.ctx
      | (i, r) :: later =>
        (∃ ns : List Notice, t.link.outQueue = rest ++ .report r :: ns.map .notice) ∧ t.ctx.reports = later ∧
        t.ctx.freeList =
          if contextAt s i = none ∧ ∀ e ∈ later, e.1 ≠ i then s.ctx.freeList ++ [i] else s.ctx.freeList

/-! ### The requests that read -/

/-- R18: READ CONTEXT shows every field of the context that the reference names, with the times to its deadlines and,
in CLOSING, its place in the CLOSING list; a reference that names no context in use is refused UNKNOWN CALL. A deadline
already passed shows 0 (log 29). -/
def Obligations.ReadContextShowsTheContext : Prop :=
  ∀ (tag : Tag) (ref : CallRef) (s : State), ready 6 tag s = true →
    exec (.readContext tag ref) s = .next (s.answers tag
      (match contextOfRef s ref.toNat with
      | none => .refuse .unknownCall .none
      | some (i, c) => .done (.context
          { ref := ref.toNat, callId := c.callId, prio := c.prio, inGroup := c.inGroup, inCircuit := c.inCircuit,
            inCarrier := c.inCarrier, numClass := c.numClass, digits := c.digits, matched := c.matched,
            routeList := c.routeList, state := c.state, attempts := c.attempts,
            attemptRemaining := c.attemptDeadline.map (· - s.time.count),
            holdRemaining := c.holdDeadline.map (· - s.time.count), answerCount := c.answerCount,
            answerWall := c.answerWall, timeStep := c.timeStep, restart := c.restart,
            closingPlace := if c.state = .closing then placeOf i s.ctx.closing else none })))

/-- R31: PREFIX READ with EXACT shows the entry at the index; with NEXT the enabled entry with the lowest index at or
above it, or NOT FOUND; a place out of range or an unknown mode is BAD FIELD. -/
def Obligations.PrefixReadShowsAnEntry : Prop :=
  (∀ (tag : Tag) (k : BankId) (i : Nat) (s : State), ready 17 tag s = true → i < 8192 →
    exec (.prefixRead tag (some k) i (some .exact)) s = .next (s.answers tag
      (.done (.entryRead k (k == s.num.active) (enabledCount (bankOf s.num k)) i (entryAt s k i))))) ∧
  (∀ (tag : Tag) (k : BankId) (i : Nat) (s : State), ready 17 tag s = true → i < 8192 →
    Table.wf (bankOf s.num k) = true →
    (∃ j e, i ≤ j ∧ Table.find (bankOf s.num k) j = some e ∧ e.enabled = true ∧
      (∀ m, i ≤ m → m < j → (entryAt s k m).enabled = false) ∧
      exec (.prefixRead tag (some k) i (some .next)) s = .next (s.answers tag
        (.done (.entryRead k (k == s.num.active) (enabledCount (bankOf s.num k)) j e)))) ∨
    ((∀ m, i ≤ m → (entryAt s k m).enabled = false) ∧
      exec (.prefixRead tag (some k) i (some .next)) s =
        .next (s.answers tag (.refuse .notFound .none)))) ∧
  ∀ (tag : Tag) (bank : Named BankId) (i : Nat) (mode : Named ReadMode) (s : State), ready 17 tag s = true →
    bank = none ∨ 8191 < i ∨ mode = none →
    exec (.prefixRead tag bank i mode) s = .next (s.answers tag (.refuse .badField .none))

/-- R44 and R122: GROUP READ of a defined group shows its record, the number of its circuits in each of the five states
and of those block-pending, the idle and busy counts, the rotate pointer, the head of the idle list, its measurement
and window, and, where a range is asked for, each circuit of it up to the group's last; a first circuit that the group
lacks is NOT FOUND. R65: ROUTE LIST READ shows the list with the standing of each of its groups now. R131: GAP READ
shows the entry that holds the digits, or the up to 8 entries in the lowest occupied slots from a slot on, and every
reply to it, a refusal too, shows the figures of the table. A deadline already passed shows 0 (log 29). -/
def Obligations.GroupsListsAndGapsAreRead : Prop :=
  (∀ (tag : Tag) (g : Nat) (range : Option (Nat × Nat)) (gr : CircuitGroup) (s : State), ready 26 tag s = true →
    g < 1024 → groupAt s g = some gr → (∀ first n, range = some (first, n) → first < gr.circuits.length ∧
      first < 512 ∧ 1 ≤ n ∧ n ≤ 64) →
    ∃ circuits : List CircuitView,
      exec (.groupRead tag g range) s = .next (s.answers tag (.done (.group
        { group := g, record := gr.record, count := gr.circuits.length,
          states := ⟨gr.circuits.countP (·.name == .idle), gr.circuits.countP (·.name == .out),
            gr.circuits.countP (·.name == .inc), gr.circuits.countP (·.name == .guard),
            gr.circuits.countP (·.name == .blocked)⟩,
          blockPending := gr.circuits.countP (·.blockPending), idleCount := gr.idleList.length,
          busyCount := gr.circuits.countP (·.name == .out) + gr.circuits.countP (·.name == .inc),
          rotate := gr.rotate, idleHead := gr.idleList.head?, meas := gr.meas,
          historyLength := gr.meas.history.length, windowRunning := windowsRunning s,
          windowRemaining := gr.record.window * 10 - gr.meas.elapsed, circuits := circuits }))) ∧
      (range = none → circuits = []) ∧
      ∀ first n, range = some (first, n) → circuits.length = min n (gr.circuits.length - first) ∧
        ∀ c k, first ≤ c → c < first + n → gr.circuits[c]? = some k →
          circuits[c - first]? = some (match k with
            | .idle _ => .idle c ((placeOf c gr.idleList).getD 0)
            | .out ref since p => .out c ref (s.time.count - since) p
            | .inc ref since p => .inc c ref (s.time.count - since) p
            | .guard d => .guard c (d - s.time.count)
            | .blocked => .blocked c)) ∧
  (∀ (tag : Tag) (g : Nat) (s : State), ready 26 tag s = true →
    (1023 < g → ∀ range, exec (.groupRead tag g range) s = .next (s.answers tag (.refuse .badField .none))) ∧
    (∀ first n, 511 < first ∨ n < 1 ∨ 64 < n → exec (.groupRead tag g (some (first, n))) s =
      .next (s.answers tag (.refuse .badField .none))) ∧
    (g < 1024 → groupAt s g = none → ∀ range, readRangeGood range = true → exec (.groupRead tag g range) s =
      .next (s.answers tag (.refuse .notFound .none))) ∧
    (∀ gr first n, g < 1024 → groupAt s g = some gr → gr.circuits.length ≤ first → first < 512 → 1 ≤ n → n ≤ 64 →
      exec (.groupRead tag g (some (first, n))) s = .next (s.answers tag (.refuse .notFound .none)))) ∧
  (∀ (tag : Tag) (list : Nat) (s : State), ready 33 tag s = true →
    exec (.routeListRead tag list) s = .next (s.answers tag
      (if 2047 < list then .refuse .badField .none
      else match Table.find s.sel.routeLists list with
        | none => .refuse .notFound .none
        | some rl => .done (.routeList rl
            (rl.choices.map (fun g => (g, (groupAt s g).map (fun gr =>
              ⟨gr.record.direction, gr.circuits.length, gr.record.service, gr.idleList.length, gr.meas.adopted,
                gr.record.reservations.at gr.meas.adopted⟩))))
            s.sel.routeLists.length)))) ∧
  ∀ (tag : Tag) (key : GapKey) (good : Bool) (l : List (Nat × GapEntry)) (hostSet automatic : Nat) (s : State),
    ready 42 tag s = true →
    good = (match key with | .byDigits digits => digitsGood 1 16 digits | .fromSlot slot => decide (slot < 64)) →
    l = (match key with
      | .byDigits digits => (gapOfDigits s digits).toList
      | .fromSlot slot => (s.gap.slots.filter (fun e => slot ≤ e.1)).take 8) →
    hostSet = s.gap.slots.countP (fun e => e.2.origin == .hostSet) →
    automatic = s.gap.slots.countP (fun e => e.2.origin == .automatic) →
    exec (.gapRead tag key) s = .next (s.answers tag
      (if good = false then .refuse .badField (.gapTable s.gap.slots.length hostSet automatic)
      else if l = [] then .refuse .notFound (.gapTable s.gap.slots.length hostSet automatic)
      else .done (.gaps (l.map (fun (slot, e) =>
          { slot := slot, digits := e.digits, interval := e.interval, origin := e.origin,
            remaining := e.lifetime.map (fun d => ceilDiv (d - s.time.count) 10),
            opensIn := e.gapDeadline.map (· - s.time.count), sincePass := e.lastPass.map (s.time.count - ·),
            createdCount := e.createdCount, createdWall := e.createdWall, gapped := e.gapped,
            autoPlace := placeOf slot s.gap.autoList }))
        s.gap.slots.length hostSet automatic)))


/-- R151: CARRIER READ shows the agreement as held, for every carrier id; an id above 127 is BAD FIELD. -/
def Obligations.CarrierReadShowsTheAgreement : Prop :=
  ∀ (tag : Tag) (carrier : Nat) (s : State), ready 52 tag s = true →
    exec (.carrierRead tag carrier) s = .next (s.answers tag
      (if 127 < carrier then .refuse .badField .none
      else .done (.carrier carrier ((Table.find s.rate.carriers carrier).getD Carrier.zero))))

/-- R197: STATUS shows the figures of the part; CLEAR then sets the four link counters to 0, other values than its two
are BAD FIELD. -/
def Obligations.StatusShowsAndClears : Prop :=
  ∀ (tag : Tag) (s : State), ready 80 tag s = true →
    ∃ v : StatusView,
      exec (.status tag (some false)) s = .next (s.answers tag (.done (.status v))) ∧
      exec (.status tag (some true)) s = .next { s with link := { s.link.answered tag (.done (.status v)) with
        checkErrors := 0, overruns := 0, rejects := 0, noticesLost := 0 } } ∧
      exec (.status tag none) s = .next (s.answers tag (.refuse .badField .none)) ∧
      v.conditions = s.link.conditions ∧ v.enabled = s.link.enabled ∧ v.engine = s.eng.state ∧
      v.reason = s.eng.reason ∧ v.held = s.eng.held.length ∧ v.faultLatched = s.eng.fault.isSome ∧
      v.faultCount = s.eng.faultCount ∧ v.free = s.ctx.freeList.length ∧
      v.queued + v.routed + v.alerting + v.answered + v.closing = s.ctx.contexts.length ∧
      v.queued = countState .queued s ∧ v.routed = countState .routed s ∧ v.alerting = countState .alerting s ∧
      v.answered = countState .answered s ∧ v.closing = countState .closing s ∧
      v.routeLists = s.sel.routeLists.length ∧ v.settlement = s.rate.queue.length ∧ v.seq = s.rate.seq ∧
      v.count = s.time.count ∧ v.wall = s.time.wall ∧ v.inBuffer = s.link.inBuf.length - 1 ∧
      v.outHeld = s.link.outQueue.length ∧ v.outFree = 512 - (s.link.outQueue.length + s.link.reserved + 1) ∧
      v.checkErrors = s.link.checkErrors ∧ v.overruns = s.link.overruns ∧ v.rejects = s.link.rejects ∧
      v.noticesLost = s.link.noticesLost

/-- R184: TRIAL is refused WRONG STATE outside HELD. In HELD it reports the analysis, and for a call that routes the gap
verdict, a verdict for each choice of the route list in order, the result its policy would reach from them, and the
circuit that a hunt would take (R83, R136), with engine state and reason, and it changes nothing. -/
def Obligations.TrialReportsWithoutChanging : Prop :=
  (∀ (tag : Tag) (origin : Nat) (cls : Named NumberClass) (digits : List Nat) (prio duration : Nat) (s : State),
    ready 68 tag s = true → s.eng.state ≠ .held →
    exec (.trial tag origin cls digits prio duration) s =
      .next (s.answers tag (.refuse .wrongState .none))) ∧
  (∀ (tag : Tag) (origin : Nat) (cls : NumberClass) (digits : List Nat) (prio duration : Nat) (s : State),
    ready 68 tag s = true → s.eng.state = .held → origin < 128 → digitsGood 1 20 digits = true → prio ≤ 3 →
    ∃ v : TrialView, exec (.trial tag origin (some cls) digits prio duration) s =
        .next (s.answers tag (.done (.trial v))) ∧
      v.analysis = analyse s origin cls digits ∧ v.state = .held ∧ v.reason = s.eng.reason ∧
      (∀ bank index list rl, v.analysis = .routed bank index list → Table.find s.sel.routeLists list = some rl →
        v.gap = some (gapVerdict prio digits s) ∧
        v.verdicts = (rl.choices.zipIdx.map (fun e => ⟨e.2, e.1, verdictOf s rl.ceiling origin prio e.2 e.1⟩)) ∧
        v.outcome = some (outcomeOf rl.policy (evaluated rl.policy v.verdicts)) ∧
        (∀ position group gr, v.outcome = some (.chosen position group) → groupAt s group = some gr →
          v.circuit = gr.pick)) ∧
      ((∀ bank index list, v.analysis ≠ .routed bank index list) →
        v.gap = none ∧ v.verdicts = [] ∧ v.outcome = none ∧ v.circuit = none ∧ v.payable = none)) ∧
  ∀ (tag : Tag) (origin : Nat) (cls : Named NumberClass) (digits : List Nat) (prio duration : Nat) (s : State),
    ready 68 tag s = true → s.eng.state = .held →
    127 < origin ∨ cls = none ∨ digitsGood 1 20 digits = false ∨ 3 < prio →
    exec (.trial tag origin cls digits prio duration) s =
      .next (s.answers tag (.refuse .badField .none))

/-! ### Number banks (02) -/

/-- R29: PREFIX WRITE replaces the entry at its index by the fields as clamped, with count 0, in the bank named and
nowhere else, unless its key has a digit and another index of the bank holds it enabled: then IN USE (R24). R30:
PREFIX DELETE puts an enabled entry into its cleared form, by which the enabled count falls by one (R22); a disabled
one is NOT FOUND, a place out of range BAD FIELD. -/
def Obligations.EntriesAreWrittenAndDeleted : Prop :=
  ((∀ (tag : Tag) (k : BankId) (i : Nat) (f : EntryFields) (cls : AnyOr NumberClass) (out : EntryOutcome)
     (e : NumberEntry) (s : State), ready 16 tag s = true → i < 8192 →
     f.numClass = some cls → f.outcome = some out → digitsGood 0 16 f.digits = true →
     (∀ c, f.origin = .is c → c < 128) → (∀ l, out = .route l → l < 2048) →
     e = ⟨f.origin, cls, f.digits, out, min 255 f.threshold, max 1 (min 600 f.interval),
       max 10 (min 3600 f.lifetime), 0⟩ →
     ((f.digits = [] ∨ ∀ j x, (j, x) ∈ bankOf s.num k → x.enabled = true → sameKey x e = true → j = i) →
       ∃ t, exec (.prefixWrite tag (some k) i f) s = .next t ∧
         t = { s.answers tag (.done (.entryWritten k i e)) with num := t.num } ∧
         t.num.active = s.num.active ∧ t.num.destLength = s.num.destLength ∧
         t.num.destRemaining = s.num.destRemaining ∧ bankOf t.num k.other = bankOf s.num k.other ∧
         ∀ j, entryAt t k j = if j = i then e else entryAt s k j) ∧
     (f.digits ≠ [] → (∃ j x, (j, x) ∈ bankOf s.num k ∧ j ≠ i ∧ x.enabled = true ∧ sameKey x e = true) →
       exec (.prefixWrite tag (some k) i f) s = .next (s.answers tag (.refuse .inUse .none)))) ∧
   ∀ (tag : Tag) (bank : Named BankId) (i : Nat) (f : EntryFields) (s : State), ready 16 tag s = true →
     bank = none ∨ 8191 < i ∨ (∃ c, f.origin = .is c ∧ 127 < c) ∨ f.numClass = none ∨
       digitsGood 0 16 f.digits = false ∨ f.outcome = none ∨ (∃ l, f.outcome = some (.route l) ∧ 2047 < l) →
     exec (.prefixWrite tag bank i f) s = .next (s.answers tag (.refuse .badField .none))) ∧
  ∀ (tag : Tag) (k : BankId) (i : Nat) (s : State), ready 18 tag s = true →
    exec (.prefixDelete tag none i) s = .next (s.answers tag (.refuse .badField .none)) ∧
    (8191 < i → exec (.prefixDelete tag (some k) i) s = .next (s.answers tag (.refuse .badField .none))) ∧
    (i < 8192 → (entryAt s k i).enabled = false →
      exec (.prefixDelete tag (some k) i) s = .next (s.answers tag (.refuse .notFound .none))) ∧
    (i < 8192 → (entryAt s k i).enabled = true → Table.wf (bankOf s.num k) = true →
      ∃ t, exec (.prefixDelete tag (some k) i) s = .next t ∧
        t = { s.answers tag (.done .plain) with num := t.num } ∧ t.num.active = s.num.active ∧
        t.num.destLength = s.num.destLength ∧ t.num.destRemaining = s.num.destRemaining ∧
        bankOf t.num k.other = bankOf s.num k.other ∧
        enabledCount (bankOf t.num k) + 1 = enabledCount (bankOf s.num k) ∧
        ∀ j, entryAt t k j = if j = i then ⟨.any, .any, [], .bar, 0, 10, 300, 0⟩ else entryAt s k j)

/-- R32: BANK COPY gives each entry of the standby bank the written fields of the active bank's entry at its index,
with count 0; the active bank and the selector are unchanged, and the enabled counts become equal. R33: BANK SWAP
names the other bank where the expected count is ANY or the standby bank's; a number above 8,192 is BAD FIELD, another
number is MISMATCH with both figures. -/
def Obligations.BanksAreCopiedAndSwapped : Prop :=
  (∀ (tag : Tag) (s : State), ready 19 tag s = true → Table.wf (bankOf s.num s.num.active) = true →
     ∃ t, exec (.bankCopy tag) s = .next t ∧
       t = { s.answers tag (.done (.banksCopied (enabledCount t.num.bankA) (enabledCount t.num.bankB))) with
         num := t.num } ∧
       t.num.active = s.num.active ∧ t.num.destLength = s.num.destLength ∧
       t.num.destRemaining = s.num.destRemaining ∧
       bankOf t.num s.num.active = bankOf s.num s.num.active ∧
       enabledCount (bankOf t.num s.num.active.other) = enabledCount (bankOf s.num s.num.active) ∧
       ∀ i, entryAt t s.num.active.other i = { entryAt s s.num.active i with count := 0 }) ∧
  ∀ (tag : Tag) (expected : AnyOr Nat) (s : State), ready 20 tag s = true →
    exec (.bankSwap tag expected) s = .next
      (match expected with
      | .any =>
        { s.answers tag (.done (.bankSwapped s.num.active.other (enabledCount s.num.bankA)
            (enabledCount s.num.bankB))) with num := { s.num with active := s.num.active.other } }
      | .is n =>
        if 8192 < n then s.answers tag (.refuse .badField .none)
        else if n = enabledCount (bankOf s.num s.num.active.other) then
          { s.answers tag (.done (.bankSwapped s.num.active.other (enabledCount s.num.bankA)
              (enabledCount s.num.bankB))) with num := { s.num with active := s.num.active.other } }
        else s.answers tag
          (.refuse .mismatch (.enabledCounts n (enabledCount (bankOf s.num s.num.active.other)))))

/-! ### Circuit groups (03) -/

/-- R42 and R108: an accepted GROUP DEFINE clamps and orders the record (R107), in OUT OF SERVICE; circuits that were
BLOCKED below the new count stay so, the others are IDLE since now, the idle list is ascending, the rotate pointer 0;
the counters are kept, or 0 for a new group; the measurement starts afresh. No other group changes. R41: the three
checks of GROUP DEFINE in their order: BAD FIELD (a report enable that is neither on nor off among them, by 00 section
3.3, log 37), IN USE, TABLE FULL with the present total. Notices stand before the reply (R192, R193, log 11). -/
def Obligations.GroupDefineBuildsOrRefuses : Prop :=
  (∀ (tag : Tag) (g : Nat) (f : GroupFields) (dir : Direction) (par : Parity) (hunt : HuntOrder) (report : Bool)
     (occ ovf : Triple) (res : Quad) (s : State),
     ready 24 tag s = true → g < 1024 → f.carrier < 128 → f.direction = some dir → f.count ≤ 512 →
     f.parity = some par → f.hunting = some hunt → f.report = some report → (dir = .bothway → par ≠ .none) →
     occ = f.occupancy.over ⟨90, 95, 98⟩ → ovf = f.overflow.over ⟨20, 100, 300⟩ → res = f.reservations →
     (∀ o, groupAt s g = some o → o.record.service = .outOfService ∧ o.busyCount = 0) →
     totalAfter s g f.count ≤ 16384 →
     ∃ t gr, exec (.groupDefine tag g f) s = .next t ∧ t = { s with groups := t.groups, link := t.link } ∧
       NoticesThenReply tag (.done (.groupDefined g gr.record f.count (totalCircuits t))) s t ∧
       (∀ j, groupAt t j = if j = g then some gr else groupAt s j) ∧
       gr.record.InRange ∧ gr.record.carrier = f.carrier ∧ gr.record.direction = dir ∧
       gr.record.parity = (if dir = .bothway then par else .none) ∧ gr.record.hunting = hunt ∧
       gr.record.guard = min 100 f.guard ∧ gr.record.service = .outOfService ∧ gr.record.report = report ∧
       gr.record.window = max 1 (min 300 (f.window.over 60)) ∧
       gr.record.occupancy.l1 = max 1 (min 100 occ.l1) ∧
       gr.record.occupancy.l2 = max gr.record.occupancy.l1 (max 1 (min 100 occ.l2)) ∧
       gr.record.occupancy.l3 = max gr.record.occupancy.l2 (max 1 (min 100 occ.l3)) ∧
       gr.record.overflow.l1 = max 1 (min 1000 ovf.l1) ∧
       gr.record.overflow.l2 = max gr.record.overflow.l1 (max 1 (min 1000 ovf.l2)) ∧
       gr.record.overflow.l3 = max gr.record.overflow.l2 (max 1 (min 1000 ovf.l3)) ∧
       gr.record.rise = max 1 (min 8 (f.rise.over 2)) ∧ gr.record.fall = max 1 (min 8 (f.fall.over 3)) ∧
       gr.record.reservations.l0 = min 511 res.l0 ∧
       gr.record.reservations.l1 = max gr.record.reservations.l0 (min 511 res.l1) ∧
       gr.record.reservations.l2 = max gr.record.reservations.l1 (min 511 res.l2) ∧
       gr.record.reservations.l3 = max gr.record.reservations.l2 (min 511 res.l3) ∧
       gr.circuits.length = f.count ∧
       (∀ c, c < f.count → gr.circuits[c]? = some
         (if (groupAt s g).bind (fun o => o.circuits[c]?) = some .blocked then .blocked else .idle s.time.count)) ∧
       gr.idleList = (List.range f.count).filter (fun c => gr.circuits[c]? != some .blocked) ∧ gr.rotate = 0 ∧
       (groupAt s g = none → gr.counters = ⟨⟨0, false⟩, ⟨0, false⟩, ⟨0, false⟩, ⟨0, false⟩, ⟨0, false⟩,
         ⟨0, false⟩, ⟨0, false⟩⟩) ∧
       (∀ o, groupAt s g = some o → gr.counters = o.counters) ∧ gr.meas = ⟨0, 0, 0, 0, 0, 0, 0, [], 0⟩) ∧
  ∀ (tag : Tag) (g : Nat) (f : GroupFields) (s : State), ready 24 tag s = true →
    (1023 < g ∨ 127 < f.carrier ∨ f.direction = none ∨ f.hunting = none ∨ f.parity = none ∨ f.report = none ∨
        512 < f.count ∨ f.direction = some .bothway ∧ f.parity = some .none →
      exec (.groupDefine tag g f) s = .next (s.answers tag (.refuse .badField .none))) ∧
    (g < 1024 → f.carrier < 128 → f.direction.isSome = true → f.hunting.isSome = true → f.parity.isSome = true →
      f.report.isSome = true → f.count ≤ 512 → ¬ (f.direction = some .bothway ∧ f.parity = some .none) →
      ((∃ o, groupAt s g = some o ∧ (o.record.service ≠ .outOfService ∨ 0 < o.busyCount)) →
        exec (.groupDefine tag g f) s = .next (s.answers tag (.refuse .inUse .none))) ∧
      ((∀ o, groupAt s g = some o → o.record.service = .outOfService ∧ o.busyCount = 0) →
        16384 < totalAfter s g f.count →
        exec (.groupDefine tag g f) s =
          .next (s.answers tag (.refuse .tableFull (.totalCircuits (totalCircuits s))))))

/-- R43: GROUP SERVICE sets the service state of a defined group and nothing else, but OUT OF SERVICE is IN USE while a
circuit of the group is OUT or IN; an id or a state out of range is BAD FIELD, an undefined group NOT FOUND. -/
def Obligations.GroupServiceSetsTheState : Prop :=
  ∀ (tag : Tag) (g : Nat) (s : State), ready 25 tag s = true →
    exec (.groupService tag g none) s = .next (s.answers tag (.refuse .badField .none)) ∧
    ∀ v : ServiceState,
      (1023 < g → exec (.groupService tag g (some v)) s = .next (s.answers tag (.refuse .badField .none))) ∧
      (g < 1024 → groupAt s g = none →
        exec (.groupService tag g (some v)) s = .next (s.answers tag (.refuse .notFound .none))) ∧
      ∀ gr, g < 1024 → groupAt s g = some gr →
        (v = .outOfService → 0 < gr.busyCount →
          exec (.groupService tag g (some v)) s = .next (s.answers tag (.refuse .inUse .none))) ∧
        ((v = .outOfService → gr.busyCount = 0) →
          ∃ t, exec (.groupService tag g (some v)) s = .next t ∧
            t = { s.answers tag (.done (.groupService gr.record.service v)) with groups := t.groups } ∧
            ∀ j, groupAt t j =
              if j = g then some { gr with record := { gr.record with service := v } } else groupAt s j)

/-- R51 and R52: CIRCUIT BLOCK takes an IDLE circuit out of the idle list into BLOCKED, cancels a guard, marks a busy
circuit; CIRCUIT UNBLOCK makes a BLOCKED circuit IDLE since now at the tail of the idle list and clears the mark of a
busy one. Nothing else changes, and the reply shows the circuit's state and block-pending mark. -/
def Obligations.CircuitsAreBlockedAndUnblocked : Prop :=
  ∀ (tag : Tag) (g c : Nat) (s : State),
    (∀ gr k, g < 1024 → c < 512 → groupAt s g = some gr → gr.circuits[c]? = some k →
      (ready 27 tag s = true → ∃ t k' idle,
        exec (.circuitBlock tag g c) s = .next t ∧
        t = { s.answers tag (.done (.circuit k'.name k'.blockPending)) with groups := t.groups } ∧
        (∀ j, groupAt t j =
          if j = g then some { gr with circuits := gr.circuits.set c k', idleList := idle } else groupAt s j) ∧
        (match k with
        | .idle _ => k' = .blocked ∧ idle = gr.idleList.erase c
        | .guard _ => k' = .blocked ∧ idle = gr.idleList
        | .out ref since _ => k' = .out ref since true ∧ idle = gr.idleList
        | .inc ref since _ => k' = .inc ref since true ∧ idle = gr.idleList
        | .blocked => k' = .blocked ∧ idle = gr.idleList)) ∧
      (ready 28 tag s = true → ∃ t k' idle,
        exec (.circuitUnblock tag g c) s = .next t ∧
        t = { s.answers tag (.done (.circuit k'.name k'.blockPending)) with groups := t.groups } ∧
        (∀ j, groupAt t j =
          if j = g then some { gr with circuits := gr.circuits.set c k', idleList := idle } else groupAt s j) ∧
        (match k with
        | .blocked => k' = .idle s.time.count ∧ idle = gr.idleList ++ [c]
        | .out ref since _ => k' = .out ref since false ∧ idle = gr.idleList
        | .inc ref since _ => k' = .inc ref since false ∧ idle = gr.idleList
        | .idle since => k' = .idle since ∧ idle = gr.idleList
        | .guard d => k' = .guard d ∧ idle = gr.idleList))) ∧
    (∀ refusal, (1023 < g ∨ 511 < c) ∧ refusal = .badField ∨
        g < 1024 ∧ c < 512 ∧ (∀ gr, groupAt s g = some gr → gr.circuits.length ≤ c) ∧ refusal = .notFound →
      (ready 27 tag s = true →
        exec (.circuitBlock tag g c) s = .next (s.answers tag (.refuse refusal .none))) ∧
      (ready 28 tag s = true →
        exec (.circuitUnblock tag g c) s = .next (s.answers tag (.refuse refusal .none))))

/-- R60: READ GROUP COUNTERS shows the seven counters with their wrap marks, then clears the marks and nothing else of
the group, and re-evaluates the condition "counter wrapped", whose notice stands before the reply (R192, R193, log
11). -/
def Obligations.ReadGroupCountersClearsTheMarks : Prop :=
  ∀ (tag : Tag) (g : Nat) (s : State), ready 29 tag s = true →
    (1023 < g → exec (.readGroupCounters tag g) s = .next (s.answers tag (.refuse .badField .none))) ∧
    (g < 1024 → groupAt s g = none →
      exec (.readGroupCounters tag g) s = .next (s.answers tag (.refuse .notFound .none))) ∧
    ∀ gr, g < 1024 → groupAt s g = some gr →
      ∃ t cs, exec (.readGroupCounters tag g) s = .next t ∧ t = { s with groups := t.groups, link := t.link } ∧
        NoticesThenReply tag (.done (.counters gr.counters)) s t ∧
        (∀ j, groupAt t j = if j = g then some { gr with counters := cs } else groupAt s j) ∧
        (∀ n, cs.get n = ⟨(gr.counters.get n).value, false⟩) ∧
        t.link.conditions.contains .counterWrapped = anyWrapped t

/-! ### Route lists and gaps (04, 07) -/

/-- R64: ROUTE LIST WRITE replaces a list whole, or makes it undefined where it gives no choice, and changes no other; an
id above 2047, an unknown policy, more than 8 choices, a group above 1023 or a group named twice is BAD FIELD. -/
def Obligations.RouteListWriteReplacesTheList : Prop :=
  ∀ (tag : Tag) (list : Nat) (policy : Named Policy) (ceiling : BitVec 16) (choices : List Nat) (s : State),
    ready 32 tag s = true →
    (2047 < list ∨ policy = none ∨ 8 < choices.length ∨ (∃ g ∈ choices, 1023 < g) ∨ ¬ choices.Nodup →
      exec (.routeListWrite tag list policy ceiling choices) s =
        .next (s.answers tag (.refuse .badField .none))) ∧
    ∀ p, policy = some p → list < 2048 → choices.length ≤ 8 → (∀ g ∈ choices, g < 1024) → choices.Nodup →
      ∃ t held, exec (.routeListWrite tag list policy ceiling choices) s = .next t ∧
        t = { s.answers tag (.done (.routeListWritten list held t.sel.routeLists.length)) with sel := t.sel } ∧
        held = (if choices = [] then none else some ⟨p, ceiling, choices⟩) ∧
        t.sel.crankbackLimit = s.sel.crankbackLimit ∧ t.sel.attemptTimeout = s.sel.attemptTimeout ∧
        ∀ j, Table.find t.sel.routeLists j = if j = list then held else Table.find s.sel.routeLists j

/-- R129: GAP ADD for digits that no entry holds makes a HOST SET entry, open and without passes, in the lowest free
slot, or is TABLE FULL; for digits that an entry holds it replaces interval and lifetime, makes the entry HOST SET and
keeps its other fields, a CLOSED entry opening again by its new interval (R126); the reply shows slot, digits, interval
and lifetime as adopted. R130: GAP REMOVE removes the entry that holds the digits, shows its fields, and frees its slot
and its place in the automatic list; digits that no entry holds are NOT FOUND, other digits BAD FIELD. R132: an
automatic request renews the entry that holds its digits, in interval and lifetime where it is AUTOMATIC, in a lifetime
never shortened where it is HOST SET. R133: for digits that no entry holds it takes the lowest free slot, else the slot
of the oldest AUTOMATIC entry, else it is GAP TABLE FULL. Each produces its notice (R134). -/
def Obligations.GapsAreAddedAndRemoved : Prop :=
  (∀ (tag : Tag) (digits : List Nat) (interval : Nat) (lifetime : Lifetime) (s : State), ready 40 tag s = true →
     (digitsGood 1 16 digits = false →
       exec (.gapAdd tag digits interval lifetime) s = .next (s.answers tag (.refuse .badField .none))) ∧
     ∀ n secs life, n = max 1 (min 600 interval) →
       secs = (match lifetime with
         | .permanent => none
         | .seconds k => some (max 1 (min 86400 k))) →
       life = secs.map (fun k => s.time.count + k * 10) →
       digitsGood 1 16 digits = true →
       (∀ slot, gapOfDigits s digits = none → slot < 64 → Table.find s.gap.slots slot = none →
         (∀ j, j < slot → Table.find s.gap.slots j ≠ none) →
         ∃ t, exec (.gapAdd tag digits interval lifetime) s = .next t ∧
           t = { s.answers tag (.done (.gapAdded slot digits n secs false)) with gap := t.gap } ∧
           t.gap.autoList = s.gap.autoList ∧
           ∀ j, Table.find t.gap.slots j =
             if j = slot then some ⟨digits, n, .hostSet, life, none, none, s.time.count, s.time.wall, 0⟩
             else Table.find s.gap.slots j) ∧
       (gapOfDigits s digits = none → (∀ j, j < 64 → Table.find s.gap.slots j ≠ none) →
         exec (.gapAdd tag digits interval lifetime) s = .next (s.answers tag
           (.refuse .tableFull (.gapEntries (countOrigin .hostSet s) (countOrigin .automatic s))))) ∧
       ∀ slot e, gapOfDigits s digits = some (slot, e) →
         ∃ t, exec (.gapAdd tag digits interval lifetime) s = .next t ∧
           t = { s.answers tag (.done (.gapAdded slot digits n secs true)) with gap := t.gap } ∧
           t.gap.autoList = s.gap.autoList.erase slot ∧
           ∀ j, Table.find t.gap.slots j =
             if j = slot then some { e with
               interval := n, lifetime := life, origin := .hostSet,
               gapDeadline := match e.gapDeadline, e.lastPass with
                 | some _, some p => if p + n ≤ s.time.count then none else some (p + n)
                 | d, _ => d }
             else Table.find s.gap.slots j) ∧
  (∀ (tag : Tag) (digits : List Nat) (s : State), ready 41 tag s = true →
    (digitsGood 1 16 digits = false →
      exec (.gapRemove tag digits) s = .next (s.answers tag (.refuse .badField .none))) ∧
    (digitsGood 1 16 digits = true → gapOfDigits s digits = none →
      exec (.gapRemove tag digits) s = .next (s.answers tag (.refuse .notFound .none))) ∧
    ∀ slot e, digitsGood 1 16 digits = true → gapOfDigits s digits = some (slot, e) →
      ∃ t, exec (.gapRemove tag digits) s = .next t ∧
        t = { s.answers tag (.done (.gapRemoved slot e)) with gap := t.gap } ∧
        t.gap.autoList = s.gap.autoList.erase slot ∧
        ∀ j, Table.find t.gap.slots j = if j = slot then none else Table.find s.gap.slots j) ∧
  ∀ (digits : List Nat) (interval lifetime life : Nat) (s t : State), t = automaticGap digits interval lifetime s →
    life = s.time.count + lifetime * 10 →
    (∀ slot e r, gapOfDigits s digits = some (slot, e) →
      r = (match e.origin, e.lifetime with
        | .automatic, _ => { e with
            interval := interval, lifetime := some life,
            gapDeadline := match e.gapDeadline, e.lastPass with
              | some _, some p => if p + interval ≤ s.time.count then none else some (p + interval)
              | d, _ => d }
        | .hostSet, some d => { e with lifetime := some (max d life) }
        | .hostSet, none => e) →
      t = { s with
        gap := { s.gap with slots := t.gap.slots },
        link := s.link.notice (.gapChange .renewed slot r.digits r.origin r.interval
          (r.lifetime.map (fun d => ceilDiv (d - s.time.count) 10))) } ∧
      ∀ j, Table.find t.gap.slots j = if j = slot then some r else Table.find s.gap.slots j) ∧
    (gapOfDigits s digits = none →
      (∀ slot, slot < 64 → Table.find s.gap.slots slot = none →
        (∀ j, j < slot → Table.find s.gap.slots j ≠ none) →
        t = { s with
          gap := ⟨t.gap.slots, s.gap.autoList ++ [slot]⟩,
          link := s.link.notice (.gapChange .created slot digits .automatic interval (some lifetime)) } ∧
        ∀ j, Table.find t.gap.slots j =
          if j = slot then some ⟨digits, interval, .automatic, some life, none, none, s.time.count, s.time.wall, 0⟩
          else Table.find s.gap.slots j) ∧
      ((∀ j, j < 64 → Table.find s.gap.slots j ≠ none) →
        (∀ slot later old, s.gap.autoList = slot :: later → Table.find s.gap.slots slot = some old →
          t = { s with
            gap := ⟨t.gap.slots, later ++ [slot]⟩,
            link := s.link.notice
              (.gapChange (.replaced old.digits) slot digits .automatic interval (some lifetime)) } ∧
          ∀ j, Table.find t.gap.slots j =
            if j = slot then some ⟨digits, interval, .automatic, some life, none, none, s.time.count, s.time.wall, 0⟩
            else Table.find s.gap.slots j) ∧
        (s.gap.autoList = [] →
          t = { s with link := s.link.notice (.gapTableFull digits interval lifetime) })))

/-! ### Time base and agreements (08) -/

/-- R142: SET TIME sets the wall clock, leaves the count, flags every ANSWERED call TIME STEP, and ends the condition
"time unset", whose notice stands before the reply (R192, R193, log 11); an invalid date or time of day is BAD
FIELD. -/
def Obligations.SetTimeSetsTheWallClock : Prop :=
  ∀ (tag : Tag) (date : Date) (tod : Nat) (s : State), ready 48 tag s = true →
    ((validDate date = false ∨ 863999 < tod) →
      exec (.setTime tag date tod) s = .next (s.answers tag (.refuse .badField .none))) ∧
    (validDate date = true → tod < 864000 →
      ∃ t, exec (.setTime tag date tod) s = .next t ∧
        t = { s with
          time := { s.time with wall := some ⟨date, tod⟩ },
          ctx := { s.ctx with contexts := t.ctx.contexts },
          link := t.link } ∧
        NoticesThenReply tag
          (.done (.timeSet s.time.wall (some ⟨date, tod⟩) s.time.count (countState .answered s))) s t ∧
        t.link.conditions.contains .timeUnset = false ∧
        ∀ i, contextAt t i = (contextAt s i).map (fun c =>
          if c.state = .answered then { c with timeStep := true } else c))

/-- R144 and R146: HOLIDAY WRITE holds the dates in ascending order and the weekdays as a set, KEEP keeping either; BAND
SCHEDULE WRITE holds the entries in ascending order of start minute, the lowest start then set to 0, and with no
entries shows the list held. -/
def Obligations.CalendarAndBandsAreWritten : Prop :=
  (∀ (tag : Tag) (mask : Keep (List Weekday)) (dates : Keep (List Date)) (s : State), ready 49 tag s = true →
    (∀ l, dates = .to l → l.length ≤ 32 ∧ (∀ d ∈ l, validDate d = true) ∧ l.Nodup) →
    ∃ t, exec (.holidayWrite tag (match mask with | .keep => .keep | .to l => .to (l.map some)) dates) s = .next t ∧
      t = { s.answers tag (.done (.calendar t.time.weekendMask t.time.holidays)) with
        time := { s.time with weekendMask := t.time.weekendMask, holidays := t.time.holidays } } ∧
      (mask = .keep → t.time.weekendMask = s.time.weekendMask) ∧
      (∀ l, mask = .to l → ∀ w, w ∈ t.time.weekendMask ↔ w ∈ l) ∧
      (dates = .keep → t.time.holidays = s.time.holidays) ∧
      (∀ l, dates = .to l → t.time.holidays.Perm l ∧
        t.time.holidays.Pairwise (fun a b => dayNumber a ≤ dayNumber b))) ∧
  (∀ (tag : Tag) (mask : Keep (List (Named Weekday))) (holidays : Keep (List Date)) (s : State),
    ready 49 tag s = true →
    (∃ l, mask = .to l ∧ none ∈ l) ∨ (∃ l, holidays = .to l ∧
      (32 < l.length ∨ ¬ l.Nodup ∨ ∃ d ∈ l, validDate d = false)) →
    exec (.holidayWrite tag mask holidays) s = .next (s.answers tag (.refuse .badField .none))) ∧
  (∀ (tag : Tag) (c : DayClass) (l : List BandEntry) (s : State), ready 50 tag s = true → l ≠ [] →
    l.length ≤ 4 → (∀ e ∈ l, e.start ≤ 1439 ∧ e.band ≤ 3) → (l.map (·.start)).Nodup →
    ∃ first later, (first :: later).Perm l ∧ ((first :: later).map (·.start)).Pairwise (· < ·) ∧
      exec (.bandScheduleWrite tag (some c) l) s = .next
        { s.answers tag (.done (.bands c ({ first with start := 0 } :: later))) with
          time := s.time.setBands c ({ first with start := 0 } :: later) }) ∧
  (∀ (tag : Tag) (c : DayClass) (s : State), ready 50 tag s = true →
    exec (.bandScheduleWrite tag (some c) []) s = .next (s.answers tag (.done (.bands c (bandList s.time c))))) ∧
  ∀ (tag : Tag) (c : Named DayClass) (l : List BandEntry) (s : State), ready 50 tag s = true →
    c = none ∨ 4 < l.length ∨ (∃ e ∈ l, 1439 < e.start ∨ 3 < e.band) ∨ ¬ (l.map (·.start)).Nodup →
    exec (.bandScheduleWrite tag c l) s = .next (s.answers tag (.refuse .badField .none))

/-- R150: CARRIER WRITE replaces the agreement of one carrier by the fields clamped into their ranges; an id above 127 or
an OWN or mirror value that is neither on nor off is BAD FIELD. -/
def Obligations.CarrierWriteReplacesTheAgreement : Prop :=
  ∀ (tag : Tag) (carrier : Nat) (f : CarrierFields) (s : State), ready 51 tag s = true →
    (127 < carrier ∨ f.own = none ∨ f.mirror = none →
      exec (.carrierWrite tag carrier f) s = .next (s.answers tag (.refuse .badField .none))) ∧
    ∀ own mirror, carrier < 128 → f.own = some own → f.mirror = some mirror →
      ∃ t a, exec (.carrierWrite tag carrier f) s = .next t ∧
        t = { s.answers tag (.done (.carrier carrier a)) with rate := { s.rate with carriers := t.rate.carriers } } ∧
        a.own = own ∧ a.mirror = mirror ∧ a.revision = f.revision ∧ a.premium = min 100 f.premium ∧
        a.inbound.fee = min 10000000 f.inbound.fee ∧ a.inbound.first = min 600 f.inbound.first ∧
        a.inbound.step = max 1 (min 60 f.inbound.step) ∧ a.outbound.fee = min 10000000 f.outbound.fee ∧
        a.outbound.first = min 600 f.outbound.first ∧ a.outbound.step = max 1 (min 60 f.outbound.step) ∧
        (∀ c b, a.inbound.rates.at c b = min 1000000 (f.inbound.rates.at c b) ∧
          a.outbound.rates.at c b = min 1000000 (f.outbound.rates.at c b)) ∧
        ∀ j, agreement t j = if j = carrier then a else agreement s j

/-! ### Settlement (09) -/

/-- R169 and R167: DISCARD RECORDS removes the n oldest records where the oldest bears the number given, else MISMATCH
with both figures; more than are held, or a count out of range, is BAD FIELD. With no context CLOSING nothing else of
the blocks changes; the first CLOSING context's record enters behind those left, numbered by the counter, and the
context is freed. Notices stand before the reply (R192, R193, log 11). R168: READ RECORDS gives the oldest records in
queue order and removes none: of as many as asked and held, the most that fit the 1,010 bytes which the reply leaves
them (R192, log 15), so that the next one would not fit; a count outside 1 to 16 is BAD FIELD. -/
def Obligations.RecordsAreReadAndDiscarded : Prop :=
  (∀ (tag : Tag) (first : BitVec 32) (n : Nat) (s : State), ready 57 tag s = true →
     (n < 1 ∨ 2048 < n →
       exec (.discardRecords tag first n) s = .next (s.answers tag (.refuse .badField .none))) ∧
     (1 ≤ n → n ≤ 2048 → (∃ r rest, s.rate.queue = r :: rest ∧ r.seq ≠ first) →
       exec (.discardRecords tag first n) s = .next (s.answers tag
         (.refuse .mismatch (.oldest (s.rate.queue.head?.map (·.seq)) s.rate.queue.length)))) ∧
     (1 ≤ n → n ≤ 2048 → s.rate.queue.length < n → (∀ r ∈ s.rate.queue.head?, r.seq = first) →
       exec (.discardRecords tag first n) s = .next (s.answers tag (.refuse .badField .none))) ∧
     (1 ≤ n → n ≤ s.rate.queue.length → s.rate.queue.length ≤ 2048 → (∀ r ∈ s.rate.queue.head?, r.seq = first) →
       ∃ t, exec (.discardRecords tag first n) s = .next t ∧
         NoticesThenReply tag (.done (.discarded n
           (min (2048 - (s.rate.queue.length - n)) s.ctx.closing.length) t.rate.queue.length
           (t.rate.queue.head?.map (·.seq)) (countState .closing t))) s t ∧
         t.rate.carriers = s.rate.carriers ∧ t.rate.watermark = s.rate.watermark ∧ t.num = s.num ∧ t.sel = s.sel ∧
         t.gap = s.gap ∧ t.time = s.time ∧ t.pending = s.pending ∧
         (s.ctx.closing = [] →
           t = { s with rate := { s.rate with queue := s.rate.queue.drop n }, link := t.link }) ∧
         ∀ i later c body, s.ctx.closing = i :: later → contextAt s i = some c → c.pendingRecord = some body →
           s.rate.queue.drop n ++ [⟨s.rate.seq, body⟩] <+: t.rate.queue ∧ contextAt t i = none)) ∧
  (∀ (tag : Tag) (n : Nat) (s : State), ready 56 tag s = true → 1 ≤ n → n ≤ 16 →
    ∃ given more bytes, exec (.readRecords tag n) s = .next (s.answers tag
        (.done (.records given s.rate.queue.length (s.rate.queue.head?.map (·.seq)) s.rate.seq
          (countState .closing s)))) ∧
      s.rate.queue.take n = given ++ more ∧
      bytes = (given.map (fun r => 56 + 4 * r.body.split.length)).sum ∧ bytes ≤ 1010 ∧
      ∀ r later, more = r :: later → 1010 < bytes + (56 + 4 * r.body.split.length)) ∧
  ∀ (tag : Tag) (n : Nat) (s : State), ready 56 tag s = true → n = 0 ∨ 16 < n →
    exec (.readRecords tag n) s = .next (s.answers tag (.refuse .badField .none))

/-! ### The engine (10) -/

/-- R176: HOLD takes a RUNNING engine to HELD, or to HOLDING while calls are ROUTED, for reason HOST, and ENGINE STATE
is the first message where its class is enabled and there is room; a HOLDING or HELD engine stays, a STEPPING one is
BUSY. R178: FORCE HOLD takes the engine to HELD for reason FORCED from every state and leaves every call as it is; the
reply shows the former state and reason, and the number of ROUTED calls. Notices stand before the reply (R192, R193,
log 11). -/
def Obligations.HoldsStopTheEngine : Prop :=
  (∀ (tag : Tag) (s : State), ready 64 tag s = true →
     (s.eng.state = .stepping → exec (.hold tag) s = .next (s.answers tag (.refuse .busy .none))) ∧
     (s.eng.state = .holding ∨ s.eng.state = .held →
       exec (.hold tag) s = .next (s.answers tag (.done (.engine s.eng.state s.eng.reason (routedCount s))))) ∧
     (s.eng.state = .running →
       ∃ t new, exec (.hold tag) s = .next t ∧ new = (if routedCount s = 0 then .held else .holding) ∧
         t = { s with eng := { s.eng with state := new, reason := .host, stepped := none }, link := t.link } ∧
         NoticesThenReply tag (.done (.engine new .host (routedCount s))) s t ∧
         t.link.conditions.contains .engineNotRunning = true ∧
         (s.link.enabled.contains .engine = true → 66 ≤ s.link.free →
           ∃ later, t.link.outQueue = s.link.outQueue ++
             .notice (.engineState .running new s.eng.reason .host (routedCount s) s.eng.held.length) :: later))) ∧
  ∀ (tag : Tag) (s : State), ready 65 tag s = true →
    (s.eng.state = .held → s.eng.reason = .forced →
      exec (.forceHold tag) s = .next (s.answers tag (.done (.engine .held .forced (routedCount s))))) ∧
    (¬ (s.eng.state = .held ∧ s.eng.reason = .forced) →
      ∃ t, exec (.forceHold tag) s = .next t ∧
        t = { s with eng := { s.eng with state := .held, reason := .forced, stepped := none }, link := t.link } ∧
        NoticesThenReply tag (.done (.engine s.eng.state s.eng.reason (routedCount s))) s t ∧
        t.link.conditions.contains .engineNotRunning = true)

/-- R179: RESUME takes a HELD engine to RUNNING and releases the held queue until it is empty, or until a table fault
holds the engine again. Where each entry stands for its own QUEUED call, the entries released are first in service
order (R180) before all that stay, each released call is ROUTED or fails and is freed, the reply counts them, and the
calls that stay are as they were; the call reports go out in service order where each finds a place. A HOLDING or
STEPPING engine is BUSY; a RUNNING one stays, and its figures there are log 36. The reply comes last, as the rule
says. -/
def Obligations.ResumeDrainsTheHeldQueue : Prop :=
  ∀ (tag : Tag) (s : State), ready 66 tag s = true →
    (s.eng.state = .holding ∨ s.eng.state = .stepping →
      exec (.resume tag) s = .next (s.answers tag (.refuse .busy .none))) ∧
    (s.eng.state = .running →
      exec (.resume tag) s =
        .next (s.answers tag (.done (.resumed 0 0 0 s.eng.held.length .running s.eng.reason)))) ∧
    (s.eng.state = .held →
      ∃ t released routed failed, exec (.resume tag) s = .next t ∧
        AnswersWith tag
          (.done (.resumed released routed failed t.eng.held.length t.eng.state t.eng.reason)) s t ∧
        released = routed + failed ∧ OtherBlocksKept s t ∧ t.eng.held ⊆ s.eng.held ∧
        (t.eng.state = .running → t.eng.held = [] ∧ t.eng.reason = .none) ∧
        (t.eng.state ≠ .running → t.eng.reason = .tableFault) ∧
        (s.eng.held = [] → released = 0 ∧ t.ctx = s.ctx ∧ t.groups = s.groups ∧ t.eng.state = .running) ∧
        ((s.eng.held.map (·.ref)).Nodup →
          (∀ e ∈ s.eng.held, ∃ c, contextOfRef s e.ref = some (e.ref / 8, c) ∧ c.state = .queued) →
          ∃ order : List HeldEntry,
            (order ++ t.eng.held).Perm s.eng.held ∧ released = order.length ∧
            order.Pairwise (fun e f => e.prio < f.prio ∨ e.prio = f.prio ∧ e.arrival ≤ f.arrival) ∧
            (∀ e ∈ order, ∀ f ∈ t.eng.held, e.prio < f.prio ∨ e.prio = f.prio ∧ e.arrival ≤ f.arrival) ∧
            routed = order.countP (fun e => (contextAt t (e.ref / 8)).any (·.state == .routed)) ∧
            failed = order.countP (fun e => (contextAt t (e.ref / 8)).isNone) ∧
            (∀ i, (∀ e ∈ order, e.ref / 8 ≠ i) → contextAt t i = contextAt s i) ∧
            (s.ctx.reports = [] → s.eng.held.length ≤ 64 → s.eng.held.length + 1 ≤ s.link.free →
              (t.link.outQueue.drop s.link.outQueue.length).filterMap (fun m => match m with
                | .report (.routeReport ref .releasedFromHold _ _) => some ref
                | .report (.callFailed ref _) => some ref
                | _ => none) = order.map (·.ref))))

/-- R182 and R183: STEP releases the entry first in service order (R180) from the held queue of a HELD engine, and no
other. Where its selection seizes, the call is ROUTED on that circuit and the engine STEPPING for it; where it fails,
the call is freed and the engine HELD. Outside HELD it is WRONG STATE, with nothing held NOT FOUND. -/
def Obligations.StepReleasesTheFirstEntry : Prop :=
  ∀ (tag : Tag) (s : State), ready 67 tag s = true →
    (s.eng.state ≠ .held → exec (.step tag) s = .next (s.answers tag (.refuse .wrongState .none))) ∧
    (s.eng.state = .held → s.eng.held = [] →
      exec (.step tag) s = .next (s.answers tag (.refuse .notFound .none))) ∧
    ∀ e i c, s.eng.state = .held → firstServed s.eng.held = some e → contextOfRef s e.ref = some (i, c) →
      e ∈ s.eng.held ∧
      (∀ f ∈ s.eng.held, e.prio < f.prio ∨ e.prio = f.prio ∧ e.arrival ≤ f.arrival) ∧
      ∃ t result, exec (.step tag) s = .next t ∧
        AnswersWith tag (.done (.stepped e.ref e.prio result t.eng.state t.eng.held.length)) s t ∧
        OtherBlocksKept s t ∧ t.eng.held = s.eng.held.filter (fun f => f.ref != e.ref) ∧
        (∀ j, j ≠ i → contextAt t j = contextAt s j) ∧
        match result with
        | .seized g k _ => t.eng.state = .stepping ∧ t.eng.stepped = some e.ref ∧
          ∃ c', contextAt t i = some c' ∧ c'.state = .routed ∧ c'.outgoing = some (g, k) ∧ c'.holdDeadline = none
        | .failed _ => t.eng.state = .held ∧ contextAt t i = none

/-- R186: FAULT ACK shows the latched fault and the fault count, then empties the slot and clears the count, ends
"fault latched", whose notice stands before the reply (R192, R193, log 11), and leaves engine state and reason; with no
fault it is NOT FOUND. R187: HELD MEASUREMENT sets the setting and nothing else, in every engine state; the windows run
with the engine RUNNING or the setting on (R37, R120), which the reply shows. -/
def Obligations.FaultsAreAcknowledgedMeasurementSet : Prop :=
  (∀ (tag : Tag) (s : State), ready 69 tag s = true →
     (s.eng.fault = none → exec (.faultAck tag) s = .next (s.answers tag (.refuse .notFound .none))) ∧
     ∀ f, s.eng.fault = some f →
       ∃ t, exec (.faultAck tag) s = .next t ∧
         t = { s with eng := { s.eng with fault := none, faultCount := 0 }, link := t.link } ∧
         NoticesThenReply tag (.done (.faultAck f s.eng.faultCount)) s t ∧
         t.link.conditions.contains .faultLatched = false) ∧
  ∀ (tag : Tag) (setting : Named Bool) (s : State), ready 70 tag s = true →
    exec (.heldMeasurement tag setting) s = .next
      (match setting with
      | none => s.answers tag (.refuse .badField .none)
      | some v => { s.answers tag (.done (.heldMeasurement v (s.eng.state == .running || v))) with
          eng := { s.eng with heldMeasurement := v } })

/-! ### The link's settings (11) -/

/-- R195: NOTICE ENABLE adds the classes named to the enabled set, NOTICE DISABLE removes them, and nothing else changes;
a name of no class is BAD FIELD. R194: a notice of a class that is not enabled is dropped, one that finds more than 64
places free joins the tail of the output queue, and another is discarded and counted; each notice has its class. -/
def Obligations.NoticeClassesAreSet : Prop :=
  (∀ (tag : Tag) (classes : List NoticeClass) (s : State), ready 81 tag s = true →
    ∃ set, (∀ c, c ∈ set ↔ c ∈ s.link.enabled ∨ c ∈ classes) ∧
      exec (.noticeEnable tag (classes.map some)) s = .next { s with
        link := { s.link.answered tag (.done (.notices set s.link.conditions)) with enabled := set } }) ∧
  (∀ (tag : Tag) (classes : List NoticeClass) (s : State), ready 82 tag s = true →
    ∃ set, (∀ c, c ∈ set ↔ c ∈ s.link.enabled ∧ c ∉ classes) ∧
      exec (.noticeDisable tag (classes.map some)) s = .next { s with
        link := { s.link.answered tag (.done (.notices set s.link.conditions)) with enabled := set } }) ∧
  (∀ (tag : Tag) (classes : List (Named NoticeClass)) (s : State), none ∈ classes →
    (ready 81 tag s = true →
      exec (.noticeEnable tag classes) s = .next (s.answers tag (.refuse .badField .none))) ∧
    (ready 82 tag s = true →
      exec (.noticeDisable tag classes) s = .next (s.answers tag (.refuse .badField .none)))) ∧
  ∀ (n : Notice) (l : Link),
    l.notice n =
      (if n.classOf ∉ l.enabled then l
      else if 64 < 512 - (l.outQueue.length + l.reserved) then { l with outQueue := l.outQueue ++ [.notice n] }
      else { l with noticesLost := min 4294967295 (l.noticesLost + 1) }) ∧
    n.classOf = (match n with
      | .congestionChange .. => .congestion
      | .measurementReport .. => .measurement
      | .gapChange .. => .gap
      | .gapTableFull .. => .gap
      | .tableFault .. => .fault
      | .engineState .. => .engine
      | .counterWrap .. => .counter
      | .circuitAutoBlocked .. => .circuit
      | .condition .. => .condition)

/-- R198 (R6, R37, R66, R171, R180): DEVICE SETTINGS adopts each value given, clamped into its range, keeps the others,
raises the bulk reserve to the ordinary one, and re-evaluates "contexts in reserve" and "settlement backlog", whose
notices stand before the reply (R192, R193, log 11). -/
def Obligations.DeviceSettingsAdoptsValues : Prop :=
  ∀ (tag : Tag) (f : SettingsFields) (s : State), ready 83 tag s = true →
    ∃ t v, exec (.deviceSettings tag f) s = .next t ∧ NoticesThenReply tag (.done (.settings v)) s t ∧
      t = { s with
        ctx := { s.ctx with ordinaryReserve := v.ordinaryReserve, bulkReserve := v.bulkReserve },
        num := { s.num with destLength := v.destinationWindow },
        sel := { s.sel with crankbackLimit := v.crankbackLimit, attemptTimeout := v.attemptTimeout },
        eng := { s.eng with holdWait := v.holdWait },
        rate := { s.rate with watermark := v.watermark },
        link := t.link } ∧
      v.ordinaryReserve = (match f.ordinaryReserve with | .keep => s.ctx.ordinaryReserve | .to n => min 4096 n) ∧
      v.bulkReserve = max v.ordinaryReserve
        (match f.bulkReserve with | .keep => s.ctx.bulkReserve | .to n => min 4096 n) ∧
      v.destinationWindow =
        (match f.destinationWindow with | .keep => s.num.destLength | .to n => max 5 (min 60 n)) ∧
      v.crankbackLimit = (match f.crankbackLimit with | .keep => s.sel.crankbackLimit | .to n => min 7 n) ∧
      v.attemptTimeout =
        (match f.attemptTimeout with | .keep => s.sel.attemptTimeout | .to n => max 20 (min 600 n)) ∧
      v.holdWait = (match f.holdWait with | .keep => s.eng.holdWait | .to n => max 1 (min 100 n)) ∧
      v.watermark = (match f.watermark with | .keep => s.rate.watermark | .to n => max 1 (min 2048 n)) ∧
      t.link.conditions.contains .contextsInReserve = decide (s.ctx.freeList.length ≤ v.ordinaryReserve) ∧
      t.link.conditions.contains .settlementBacklog = decide (v.watermark ≤ s.rate.queue.length)

/-! ### Restarts -/

/-- R200 (R20, R38, R61, R85, R123, R137, R152, R173, R188, R201): COLD RESTART, and the release of an asserted RESET
line, leave every block in its initial state with RESTARTED alone in the output queue. Of the model's own records the
message being sent and DONE are noted as sent (log 9, log 10), and the waiting commands stay. -/
def Obligations.ColdRestartResetsEveryBlock : Prop :=
  (∀ (tag : Tag) (s : State), ready 85 tag s = true →
    exec (.coldRestart tag) s = .next { State.reset with
      link := { State.reset.link with
        outQueue := [.restarted ⟨.coldRestart, 0, none, .held, .start, [.timeUnset, .engineNotRunning], none⟩],
        txd := s.link.txd ++ s.link.outQueue.take 1 ++ [.reply tag (.done .plain)] },
      pending := s.pending }) ∧
  ∀ s : State, exec .resetReleased s = .next
    (if s.link.resetLine = true then
      { State.reset with link := { State.reset.link with txd := s.link.txd }, pending := s.pending }
    else s)

/-- R199 (R21, R39, R62, R124, R138, R189, R201): WARM RESTART is refused BACKLOG where the settlement queue has fewer
free places than there are ANSWERED and CLOSING calls. Else the records of the ANSWERED calls enter in ascending order,
flagged RESTART, every call is freed without a report, and pending call reports are dropped (log 19), the tables are
kept with their counts, windows, circuits and automatic gaps cleared, the engine stays RUNNING or is HELD, and the
event's messages are DONE, notices, RESTARTED. -/
def Obligations.WarmRestartKeepsTheTables : Prop :=
  ∀ (tag : Tag) (s : State), canTake (isRequest 84 tag) 2 s = true → tag ≠ 0 →
    (2048 - s.rate.queue.length < countState .answered s + countState .closing s →
      exec (.warmRestart tag) s = .next (s.answers tag (.refuse .backlog .none))) ∧
    (countState .answered s + countState .closing s ≤ 2048 - s.rate.queue.length → TablesCanonical s →
      ∃ t, exec (.warmRestart tag) s = .next t ∧
        t.ctx = { s.ctx with contexts := [], freeList := List.range' 0 8192, closing := [], reports := [] } ∧
        (t.num.active = s.num.active ∧ t.num.destLength = s.num.destLength ∧
          t.num.destRemaining = s.num.destLength * 10 ∧
          ∀ k i, entryAt t k i = { entryAt s k i with count := 0 }) ∧
        (∀ g, groupAt t g = (groupAt s g).map (fun gr => { gr with
          circuits := gr.circuits.map (fun k =>
            if k = .blocked ∨ k.blockPending = true then .blocked else .idle s.time.count),
          idleList := (List.range gr.circuits.length).filter (fun c =>
            match gr.circuits[c]? with | some k => !(k == .blocked || k.blockPending) | none => false),
          rotate := 0, meas := ⟨0, 0, 0, 0, 0, 0, 0, [], 0⟩ })) ∧
        t.sel = s.sel ∧ t.time = s.time ∧ t.pending = s.pending ∧
        (t.gap.autoList = [] ∧ ∀ i, Table.find t.gap.slots i =
          (Table.find s.gap.slots i).filter (fun e => e.origin == .hostSet)) ∧
        (t.rate.carriers = s.rate.carriers ∧ t.rate.watermark = s.rate.watermark ∧
          t.rate.seq = s.rate.seq + BitVec.ofNat 32 (countState .answered s) ∧
          s.rate.queue <+: t.rate.queue ∧
          t.rate.queue.map (·.body) = s.rate.queue.map (·.body) ++
            (s.ctx.contexts.filter (fun e => e.2.state == .answered)).map
              (fun e => rateContext s { e.2 with restart := true })) ∧
        t.eng = { s.eng with
          state := if s.eng.state = .running then .running else .held, stepped := none, held := [] } ∧
        t.link.inBuf = s.link.inBuf.tail ∧ t.link.enabled = s.link.enabled ∧
        ∃ ns, (∀ m ∈ ns, m.isNotice = true) ∧
          t.link.outQueue = s.link.outQueue ++ .reply tag (.done .plain) :: ns ++
            [.restarted ⟨.warmRestart, s.time.count, s.time.wall, t.eng.state, s.eng.reason, t.link.conditions,
              some ⟨countState .answered s, s.ctx.contexts.length, countOrigin .automatic s⟩⟩])

/-! ### Calls (01, 05) -/

/-- R3 and R103: PROCEED and CRANKBACK are checked in order: a circuit out of range (or an unknown cause) is BAD FIELD, a
reference that names no context in use UNKNOWN CALL, a context not ROUTED is WRONG STATE, another circuit than the one
it holds STALE ATTEMPT with the one it holds. ANSWER and RELEASE are checked alike for reference and state. -/
def Obligations.RequestsAboutCallsAreChecked : Prop :=
  ∀ (tag : Tag) (ref : CallRef) (g k : Nat) (cause : Named CrankCause) (s : State) (refusal : Option Reply),
    refusal =
      (if 1023 < g ∨ 511 < k then some (.refuse .badField .none)
      else match contextOfRef s ref.toNat with
        | none => some (.refuse .unknownCall .none)
        | some (_, c) =>
          if c.state ≠ .routed then some (.refuse .wrongState .none)
          else if c.outgoing ≠ some (g, k) then some (.refuse .staleAttempt (.current ref.toNat c.outgoing))
          else none) →
    (∀ r, refusal = some r → ready 2 tag s = true → exec (.proceed tag ref g k) s = .next (s.answers tag r)) ∧
    (∀ r x, refusal = some r → cause = some x → ready 4 tag s = true →
      exec (.crankback tag ref g k cause) s = .next (s.answers tag r)) ∧
    (cause = none → ready 4 tag s = true →
      exec (.crankback tag ref g k cause) s = .next (s.answers tag (.refuse .badField .none))) ∧
    (contextOfRef s ref.toNat = none →
      (ready 3 tag s = true → exec (.answer tag ref) s = .next (s.answers tag (.refuse .unknownCall .none))) ∧
      (ready 5 tag s = true → exec (.release tag ref) s = .next (s.answers tag (.refuse .unknownCall .none)))) ∧
    ∀ i c, contextOfRef s ref.toNat = some (i, c) →
      (c.state = .queued ∨ c.state = .answered ∨ c.state = .closing → ready 3 tag s = true →
        exec (.answer tag ref) s = .next (s.answers tag (.refuse .wrongState .none))) ∧
      (c.state = .closing → ready 5 tag s = true →
        exec (.release tag ref) s = .next (s.answers tag (.refuse .wrongState .none)))

/-- R9 and R10: PROCEED takes a ROUTED call to ALERTING, ANSWER takes a ROUTED or ALERTING one to ANSWERED with the
present instants; the attempt timer ends, the newest attempt is PROCEEDED, other calls, circuits and tables stay, and
the engine follows the calls that leave ROUTED (R177, R183), its notices before the reply (R192, R193, log 11). -/
def Obligations.CallsProceedAndAreAnswered : Prop :=
  ∀ (tag : Tag) (ref : CallRef) (i : Nat) (c : Context) (s : State), contextOfRef s ref.toNat = some (i, c) →
    (∀ g k, ready 2 tag s = true → g < 1024 → k < 512 → c.state = .routed → c.outgoing = some (g, k) →
      ∃ t, exec (.proceed tag ref g k) s = .next t ∧ NoticesThenReply tag (.done .plain) s t ∧
        t = { s with ctx := { s.ctx with contexts := t.ctx.contexts }, eng := t.eng, link := t.link } ∧
        EngineFollows s t ∧
        ∀ j, contextAt t j = if j = i then
            some { c with
              state := .alerting, attemptDeadline := none,
              attempts := modifyLast (fun a => { a with outcome := .proceeded }) c.attempts }
          else contextAt s j) ∧
    (ready 3 tag s = true → c.state = .routed ∨ c.state = .alerting →
      ∃ t, exec (.answer tag ref) s = .next t ∧ NoticesThenReply tag (.done .plain) s t ∧
        t = { s with ctx := { s.ctx with contexts := t.ctx.contexts }, eng := t.eng, link := t.link } ∧
        EngineFollows s t ∧
        ∀ j, contextAt t j = if j = i then
            some { c with
              state := .answered, attemptDeadline := none, answerCount := some s.time.count,
              answerWall := some s.time.wall,
              attempts := modifyLast (fun a => { a with outcome := .proceeded }) c.attempts }
          else contextAt s j)

/-- R11, R49, R58, R88, R98, R99, R100: a CRANKBACK taken ends the attempt CRANKED BACK with its cause: the circuit is
released, by a fault release for CIRCUIT FAULT, and the crankbacks counter of its group rises by one. For CONGESTION
the destination count of the matched entry, where that is enabled and the windows run, rises by one, or at its
threshold returns to 0 with an automatic gap asked for (R35, R36); no other entry and, without the request, no gap
changes. UNROUTABLE frees the call with ROUTE END; the other causes select again, with the reply that the limit, the
engine, the candidates and the policy give after the attempt's end (R67, R175, R76 to R80, R90): ROUTE with the call
ROUTED on the circuit named, or QUEUED with the call waiting, or a refusal with the call freed. Its notices come before
the reply (R91). -/
def Obligations.CrankbackEndsTheAttempt : Prop :=
  ∀ (tag : Tag) (ref : CallRef) (g k i : Nat) (cause : CrankCause) (c : Context) (ended : List Attempt) (s : State),
    ready 4 tag s = true → g < 1024 → k < 512 → contextOfRef s ref.toNat = some (i, c) → c.state = .routed →
    c.outgoing = some (g, k) → ended = modifyLast (fun a => { a with outcome := .crankedBack cause }) c.attempts →
    ∃ t r, exec (.crankback tag ref g k (some cause)) s = .next t ∧ NoticesThenReply tag r s t ∧
      CircuitReleased g k (cause == .circuitFault) s t ∧
      (∀ gr, groupAt s g = some gr → ∃ gr', groupAt t g = some gr' ∧
        gr'.counters.crankbacks.value = gr.counters.crankbacks.value + 1 ∧ gr'.record = gr.record) ∧
      (∀ j, j ≠ i → contextAt t j = contextAt s j) ∧
      t.sel = s.sel ∧ t.time = s.time ∧ t.rate = s.rate ∧ t.pending = s.pending ∧
      (cause ≠ .congestion ∨ windowsRunning s = false ∨ c.matched = none → t.num = s.num ∧ t.gap = s.gap) ∧
      (∀ bank index e, cause = .congestion → c.matched = some (bank, index) → e = entryAt s bank index →
        (e.enabled = false ∨ e.count = 65535 → t.num = s.num ∧ t.gap = s.gap) ∧
        (e.enabled = true → windowsRunning s = true → e.count < 65535 →
          (∀ l j, entryAt t l j = if l = bank ∧ j = index then
              { e with count := if e.threshold ≠ 0 ∧ e.count + 1 = e.threshold then 0 else e.count + 1 }
            else entryAt s l j) ∧
          t.gap = (if e.threshold ≠ 0 ∧ e.count + 1 = e.threshold then
            (automaticGap e.digits e.interval e.lifetime s).gap else s.gap))) ∧
      r = (if cause = .unroutable then .refuse .routeEnd .none
        else selectionReply (endAttempt i c (.crankedBack cause) s) ref.toNat (c.routeList.getD 0) c.inCarrier c.prio
          (c.attempts.map (·.group))) ∧
      match r with
      | .route ref' g' k' position n => ref' = ref.toNat ∧ n = c.attempts.length + 1 ∧
        ∃ c', contextAt t i = some c' ∧ c'.state = .routed ∧ c'.outgoing = some (g', k') ∧
          c'.attempts = ended ++ [⟨g', position, k', 0, .inProgress⟩] ∧
          c'.attemptDeadline = some (s.time.count + s.sel.attemptTimeout)
      | .queued ref' => ref' = ref.toNat ∧
        ∃ c', contextAt t i = some c' ∧ c'.state = .queued ∧ c'.attempts = ended ∧ c'.attemptDeadline = none ∧
          c'.holdDeadline = some (s.time.count + s.eng.holdWait)
      | .refuse _ .none => contextAt t i = none
      | _ => False

/-- R14, R15, R16, R167: RELEASE frees a call in QUEUED, ROUTED or ALERTING, with its circuits released and its place in
the held queue given up; an ANSWERED call's record enters the settlement queue and the call is freed, or, with the
queue full, the call is CLOSING with its record at the tail of the CLOSING list. Notices stand before the reply (R192,
R193, log 11). -/
def Obligations.ReleaseEndsTheCall : Prop :=
  ∀ (tag : Tag) (ref : CallRef) (i : Nat) (c : Context) (s : State), ready 5 tag s = true →
    contextOfRef s ref.toNat = some (i, c) → c.state ≠ .closing →
    ∃ t, exec (.release tag ref) s = .next t ∧ NoticesThenReply tag (.done .plain) s t ∧
      t.num = s.num ∧ t.sel = s.sel ∧ t.gap = s.gap ∧ t.time = s.time ∧ t.pending = s.pending ∧
      OnlyCircuitsChange ((c.inGroup, c.inCircuit) :: c.outgoing.toList) s t ∧
      CircuitReleased c.inGroup c.inCircuit false s t ∧
      (∀ g k, c.outgoing = some (g, k) → CircuitReleased g k false s t) ∧
      (∀ j, j ≠ i → contextAt t j = contextAt s j) ∧
      (c.state ≠ .answered ∨ s.rate.queue.length < 2048 →
        contextAt t i = none ∧ (∀ e ∈ t.eng.held, e.ref ≠ ref.toNat) ∧
        t.ctx.freeList = (if s.ctx.reports.any (fun e => e.1 == i) then s.ctx.freeList
          else s.ctx.freeList ++ [i])) ∧
      (c.state ≠ .answered → t.rate = s.rate) ∧
      (c.state = .answered → s.rate.queue.length < 2048 →
        t.rate = { s.rate with
          queue := s.rate.queue ++ [⟨s.rate.seq, rateContext s c⟩], seq := s.rate.seq + 1 }) ∧
      (c.state = .answered → 2048 ≤ s.rate.queue.length →
        t.rate = s.rate ∧ t.eng = s.eng ∧ t.ctx.freeList = s.ctx.freeList ∧ t.ctx.closing = s.ctx.closing ++ [i] ∧
        contextAt t i = some { c with state := .closing, pendingRecord := some (rateContext s c) } ∧
        t.link.conditions.contains .recordsPending = true)

/-- R5, R7, R47, R48: a SETUP with a field out of range is BAD FIELD; one that its class does not admit at this free count
is NO CONTEXT; one whose incoming circuit cannot be marked is BAD CIRCUIT; one that names a circuit OUT for a ROUTED
call, of the controlled parity, is GLARE YIELD and raises glares won, a wrap's notice before the reply (R192, R193,
log 11). Each changes nothing else. -/
def Obligations.SetupIsRefusedBeforeAllocation : Prop :=
  ∀ (tag : Tag) (callId : CallId) (group circuit : BitVec 16) (numClass prio : Byte) (digits : List Byte)
    (s : State), tag ≠ 0 → digits.length ≤ 255 →
    canTake (· == setupFrame tag callId group circuit numClass prio digits) 1 s = true →
    (1023 < group.toNat ∨ 511 < circuit.toNat ∨ numClass = 0 ∨ 3 < numClass.toNat ∨ 3 < prio.toNat ∨
        digits = [] ∨ 20 < digits.length ∨ (∃ d ∈ digits, 9 < d.toNat) →
      exec (.setup tag callId group circuit numClass prio digits) s =
        .next (s.answers tag (.refuse .badField .none))) ∧
    (group.toNat < 1024 → circuit.toNat < 512 → 1 ≤ numClass.toNat → numClass.toNat ≤ 3 → prio.toNat ≤ 3 →
      1 ≤ digits.length → digits.length ≤ 20 → (∀ d ∈ digits, d.toNat ≤ 9) →
      (s.ctx.freeList = [] ∨ prio = 2 ∧ s.ctx.freeList.length ≤ s.ctx.ordinaryReserve ∨
          prio = 3 ∧ s.ctx.freeList.length ≤ s.ctx.bulkReserve →
        exec (.setup tag callId group circuit numClass prio digits) s =
          .next (s.answers tag (.refuse .noContext .none))) ∧
      (s.ctx.freeList ≠ [] → (prio = 2 → s.ctx.ordinaryReserve < s.ctx.freeList.length) →
        (prio = 3 → s.ctx.bulkReserve < s.ctx.freeList.length) →
        (∀ gr, groupAt s group.toNat = some gr →
          gr.circuits.length ≤ circuit.toNat ∨ gr.record.direction = .outgoing ∨
          gr.record.service = .outOfService ∨ gr.circuits[circuit.toNat]? = some .blocked ∨
          (∃ ref since p, gr.circuits[circuit.toNat]? = some (.inc ref since p)) ∨
          ∃ ref since p x c, gr.circuits[circuit.toNat]? = some (.out ref since p) ∧
            contextOfRef s ref = some (x, c) ∧ (c.state = .alerting ∨ c.state = .answered)) →
        exec (.setup tag callId group circuit numClass prio digits) s =
          .next (s.answers tag (.refuse .badCircuit .none))) ∧
      (s.ctx.freeList ≠ [] → (prio = 2 → s.ctx.ordinaryReserve < s.ctx.freeList.length) →
        (prio = 3 → s.ctx.bulkReserve < s.ctx.freeList.length) →
        ∀ gr ref since p x c, groupAt s group.toNat = some gr → gr.record.direction ≠ .outgoing →
          gr.record.service ≠ .outOfService → gr.circuits[circuit.toNat]? = some (.out ref since p) →
          contextOfRef s ref = some (x, c) → c.state = .routed →
          (gr.record.parity = .even ∧ circuit.toNat % 2 = 0 ∨ gr.record.parity = .odd ∧ circuit.toNat % 2 = 1) →
          ∃ t cs, exec (.setup tag callId group circuit numClass prio digits) s = .next t ∧
            NoticesThenReply tag (.refuse .glareYield .none) s t ∧
            t = { s with groups := t.groups, link := t.link } ∧
            (∀ j, groupAt t j = if j = group.toNat then some { gr with counters := cs } else groupAt s j) ∧
            cs.glaresWon.value = gr.counters.glaresWon.value + 1 ∧
            ∀ n, n ≠ .glaresWon → cs.get n = gr.counters.get n))

/-- R7, R8, R27, R28, R47, R127: an admitted SETUP whose incoming circuit is IDLE or in GUARD marks it IN for the context
at the head of the free list, under its next generation, and counts it. Analysis then decides: NO MATCH, BARRED and
TABLE FAULT free the context; a routed call of class 1 to 3 that a CLOSED gap covers is GAPPED and counted, one that an
OPEN gap covers closes it for its interval (R126); and a call that passes is answered as the engine, the candidates and
the policy give (R175, R76 to R80): ROUTE with the call ROUTED, QUEUED with the call waiting, or a refusal with the
context freed. The circuit stays IN for the call, or is released with it (R49). Notices stand before the reply (R192,
R193, log 11); the reference is the next one from the mark on (log 13). -/
def Obligations.SetupIsAnalysedAndRouted : Prop :=
  ∀ (tag : Tag) (callId : CallId) (group circuit : BitVec 16) (numClass prio : Byte) (digits : List Byte)
    (cls : NumberClass) (i ref : Nat) (free : List Nat) (gr : CircuitGroup) (selected : Nat → Reply) (s : State),
    tag ≠ 0 →
    canTake (· == setupFrame tag callId group circuit numClass prio digits) 1 s = true →
    group.toNat < 1024 → circuit.toNat < 512 → numberClassOf numClass = some cls → prio.toNat ≤ 3 →
    1 ≤ digits.length → digits.length ≤ 20 → (∀ d ∈ digits, d.toNat ≤ 9) →
    s.ctx.freeList = i :: free → (prio = 2 → s.ctx.ordinaryReserve < s.ctx.freeList.length) →
    (prio = 3 → s.ctx.bulkReserve < s.ctx.freeList.length) →
    groupAt s group.toNat = some gr → gr.record.direction ≠ .outgoing → gr.record.service ≠ .outOfService →
    (∃ q, gr.circuits[circuit.toNat]? = some q ∧ ((∃ since, q = .idle since) ∨ ∃ d, q = .guard d)) →
    ref = i * 8 + (generation s i + 1) % 8 →
    selected = (fun list =>
      selectionReply (grantMark group.toNat circuit.toNat ref s) ref list gr.record.carrier prio.toNat []) →
    ∃ t r, exec (.setup tag callId group circuit numClass prio digits) s = .next t ∧
      NoticesThenReply tag r s t ∧ generation t i = (generation s i + 1) % 8 ∧
      t.sel = s.sel ∧ t.time = s.time ∧ t.rate = s.rate ∧ t.num = s.num ∧ t.pending = s.pending ∧
      (∀ j, j ≠ i → contextAt t j = contextAt s j) ∧
      (∃ gr', groupAt t group.toNat = some gr' ∧ gr'.record = gr.record ∧
        gr'.counters.incoming.value = gr.counters.incoming.value + 1 ∧
        gr'.circuits[circuit.toNat]? = some (match r with
          | .refuse .. => releasedAs s.time.count gr.record.guard false false
          | _ => .inc ref s.time.count false)) ∧
      (match analyse s gr.record.carrier cls (digits.map (·.toNat)) with
      | .noMatch => r = .refuse .noMatch .none ∧ t.gap = s.gap
      | .barred _ _ => r = .refuse .barred .none ∧ t.gap = s.gap
      | .undefinedList _ _ _ => r = .refuse .tableFault .none ∧ t.gap = s.gap ∧ t.eng.fault.isSome = true
      | .routed bank index list =>
        (match (if prio = 0 then none else applyingGap s (digits.map (·.toNat))) with
        | none => t.gap = s.gap ∧ r = selected list
        | some (slot, e) => t.gap.autoList = s.gap.autoList ∧
          (∀ j, j ≠ slot → Table.find t.gap.slots j = Table.find s.gap.slots j) ∧
          match e.gapDeadline with
          | none => r = selected list ∧ Table.find t.gap.slots slot =
            some { e with lastPass := some s.time.count, gapDeadline := some (s.time.count + e.interval) }
          | some _ => r = .refuse .gapped .none ∧ Table.find t.gap.slots slot =
            some { e with gapped := min 4294967295 (e.gapped + 1) }) ∧
        ∀ c', contextAt t i = some c' → c'.matched = some (bank, index) ∧ c'.routeList = some list) ∧
      match r with
      | .route ref' g k position n => ref' = ref ∧ n = 1 ∧
        ∃ c', contextAt t i = some c' ∧ c'.state = .routed ∧ c'.outgoing = some (g, k) ∧
          c'.attempts = [⟨g, position, k, 0, .inProgress⟩] ∧ c'.callId = callId ∧ c'.prio = prio.toNat ∧
          c'.digits = digits.map (·.toNat) ∧ c'.inGroup = group.toNat ∧ c'.inCircuit = circuit.toNat ∧
          c'.inCarrier = gr.record.carrier ∧
          c'.attemptDeadline = some (s.time.count + s.sel.attemptTimeout)
      | .queued ref' => ref' = ref ∧
        ∃ c', contextAt t i = some c' ∧ c'.state = .queued ∧ c'.attempts = [] ∧
          c'.holdDeadline = some (s.time.count + s.eng.holdWait)
      | .refuse _ .none => contextAt t i = none
      | _ => False

/-- R7, R48, R92 to R95: an admitted SETUP that names a circuit OUT for a ROUTED call, not of the controlled parity, wins
it: incoming seizures and glares lost each rise by one, no crankback is counted, and the circuit, its block-pending
mark kept, is IN for the new call, or released with it where the SETUP is refused later. The losing call counts the
glare. Where its group passes the tests of a re-hunt it takes the circuit a hunt of the group gives, which is OUT for
it, its attempt timer is restarted, and ROUTE REPORT (GLARE) goes out where a place is free. Else its attempt is
CRANKED BACK (GLARE), and it is ROUTED on another group, QUEUED or freed as a selection without the groups tried comes
to. Its report stands before the reply (R91); that the new call's reference holds from the mark on is log 13. -/
def Obligations.LostGlaresAreRehunted : Prop :=
  ∀ (tag : Tag) (callId : CallId) (group circuit : BitVec 16) (numClass prio : Byte) (digits : List Byte)
    (cls : NumberClass) (i : Nat) (free : List Nat) (gr : CircuitGroup) (ref since x new : Nat) (p : Bool)
    (c : Context) (a : Attempt) (s : State), tag ≠ 0 →
    canTake (· == setupFrame tag callId group circuit numClass prio digits) 1 s = true →
    group.toNat < 1024 → circuit.toNat < 512 → numberClassOf numClass = some cls → prio.toNat ≤ 3 →
    1 ≤ digits.length → digits.length ≤ 20 → (∀ d ∈ digits, d.toNat ≤ 9) →
    s.ctx.freeList = i :: free → (prio = 2 → s.ctx.ordinaryReserve < s.ctx.freeList.length) →
    (prio = 3 → s.ctx.bulkReserve < s.ctx.freeList.length) → contextAt s i = none →
    groupAt s group.toNat = some gr → gr.record.direction ≠ .outgoing → gr.record.service ≠ .outOfService →
    gr.circuits[circuit.toNat]? = some (.out ref since p) → contextOfRef s ref = some (x, c) → c.state = .routed →
    (gr.record.parity = .even ∧ circuit.toNat % 2 = 1 ∨ gr.record.parity = .odd ∧ circuit.toNat % 2 = 0) →
    c.newest = some a → a.group = group.toNat → (c.inGroup, c.inCircuit) ≠ (group.toNat, circuit.toNat) →
    gr.IdleListExact → new = i * 8 + (generation s i + 1) % 8 →
    ∃ t r gr', exec (.setup tag callId group circuit numClass prio digits) s = .next t ∧ AnswersWith tag r s t ∧
      t.sel = s.sel ∧ t.time = s.time ∧ t.rate = s.rate ∧ t.num = s.num ∧ t.pending = s.pending ∧
      (∀ j, j ≠ i → j ≠ x → contextAt t j = contextAt s j) ∧
      groupAt t group.toNat = some gr' ∧ gr'.record = gr.record ∧
      gr'.counters.incoming.value = gr.counters.incoming.value + 1 ∧
      gr'.counters.glaresLost.value = gr.counters.glaresLost.value + 1 ∧
      gr'.counters.crankbacks = gr.counters.crankbacks ∧
      gr'.circuits[circuit.toNat]? = some (match r with
        | .refuse .. => releasedAs s.time.count gr.record.guard false p
        | _ => .inc new s.time.count p) ∧
      (rehuntAllowed gr a.position c.prio = true →
        ∃ k, ({ gr with circuits := gr.circuits.set circuit.toNat (.inc new s.time.count p) } : CircuitGroup).pick =
            some k ∧
          k ∈ gr.idleList ∧ gr'.circuits[k]? = some (.out ref s.time.count false) ∧
          contextAt t x = some { c with
            attempts := modifyLast (fun b => { b with glares := min 255 (b.glares + 1), circuit := k }) c.attempts,
            attemptDeadline := some (s.time.count + s.sel.attemptTimeout) } ∧
          (2 ≤ s.link.free → s.ctx.reports.any (fun e => e.1 == x) = false →
            .report (.routeReport ref .glare group.toNat k) ∈ t.link.outQueue)) ∧
      (rehuntAllowed gr a.position c.prio = false →
        ∀ ended, ended = modifyLast (fun b =>
            { b with glares := min 255 (b.glares + 1), outcome := .crankedBackGlare }) c.attempts →
          match selectionReply (grantGlare group.toNat circuit.toNat new since p s) ref (c.routeList.getD 0)
              c.inCarrier c.prio (c.attempts.map (·.group)) with
          | .route _ g' k' position _ => ∃ c', contextAt t x = some c' ∧ c'.state = .routed ∧
            c'.outgoing = some (g', k') ∧ c'.attempts = ended ++ [⟨g', position, k', 0, .inProgress⟩] ∧
            c'.attemptDeadline = some (s.time.count + s.sel.attemptTimeout)
          | .queued _ => ∃ c', contextAt t x = some c' ∧ c'.state = .queued ∧ c'.attempts = ended ∧
            c'.attemptDeadline = none ∧ c'.holdDeadline = some (s.time.count + s.eng.holdWait)
          | _ => contextAt t x = none)

/-- R13, R88, R101: an attempt timer that has reached its deadline ends the attempt as TIMED OUT: the circuit is released,
the crankbacks counter of its group rises by one, and the call is ROUTED on another circuit, queued, or freed; no
reply is sent. Before its deadline, and outside ROUTED, the expiry command changes nothing (log 2). -/
def Obligations.AttemptTimersEndAttempts : Prop :=
  (∀ (i g k d : Nat) (c : Context) (s : State), contextAt s i = some c → c.state = .routed →
    c.outgoing = some (g, k) → c.attemptDeadline = some d → d ≤ s.time.count →
    ∃ t, exec (.attemptTimerExpiry i) s = .next t ∧ Quiet s t ∧ CircuitReleased g k false s t ∧
      (∀ gr, groupAt s g = some gr → ∃ gr', groupAt t g = some gr' ∧
        gr'.counters.crankbacks.value = gr.counters.crankbacks.value + 1) ∧
      (∀ j, j ≠ i → contextAt t j = contextAt s j) ∧
      t.sel = s.sel ∧ t.time = s.time ∧ t.rate = s.rate ∧ t.pending = s.pending ∧
      ∀ c', contextAt t i = some c' →
        c'.attempts.take c.attempts.length =
            modifyLast (fun a => { a with outcome := .timedOut }) c.attempts ∧
          (c'.state = .routed ∧ c'.attempts.length = c.attempts.length + 1 ∨
            c'.state = .queued ∧ c'.attempts.length = c.attempts.length)) ∧
  ∀ (i : Nat) (s : State),
    (∀ c d, contextAt s i = some c → c.state = .routed → c.attemptDeadline = some d → s.time.count < d) →
    exec (.attemptTimerExpiry i) s = .next s

/-! ### The clock and the timers -/

/-- R109, R110, R113 to R120, R139, R140: an advance moves both clocks by one decisecond, and, where the windows run, the
destination window, whose remaining time stays at 0 until its expiry command (log 24), and every group's window: its
integral grows by its busy circuits, and where it ends it is judged: history and adopted level follow, and the window
starts again. MEASUREMENT WINDOW EXPIRY is the advance on which the group's window ends, and no event where the next
advance does not end it (log 1). -/
def Obligations.AdvancesMoveClocksAndWindows : Prop :=
  (∀ s : State, Table.wf s.groups = true → s.time.count < 281474976710655 →
    ∃ t, exec .monotonicAdvance s = .next t ∧ s.link.GainsOnly Message.isNotice t.link ∧
      t = { s with
        time := { s.time with count := s.time.count + 1, wall := t.time.wall },
        num := { s.num with destRemaining := s.num.destRemaining - if windowsRunning s then 1 else 0 },
        groups := t.groups, link := t.link } ∧
      (s.time.wall = none → t.time.wall = none) ∧
      (∀ w, s.time.wall = some w → w.tod < 863999 → t.time.wall = some ⟨w.date, w.tod + 1⟩) ∧
      (∀ w, s.time.wall = some w → w.tod = 863999 →
        t.time.wall = (nextDate w.date).map (fun d => ⟨d, 0⟩)) ∧
      (windowsRunning s = false → t.groups = s.groups) ∧
      (windowsRunning s = true → ∀ g, groupAt t g = (groupAt s g).map (fun gr =>
        if gr.meas.elapsed + 1 < gr.record.window * 10 then
          { gr with meas := { gr.meas with
            elapsed := gr.meas.elapsed + 1, integral := min 1536000 (gr.meas.integral + gr.busyCount) } }
        else
          let raw := rawLevel { gr with meas := { gr.meas with
            integral := min 1536000 (gr.meas.integral + gr.busyCount) } }
          let history := (raw :: gr.meas.history).take 8
          { gr with meas := ⟨0, 0, 0, 0, 0, 0, 0, history,
            adoptLevel gr.record.rise gr.record.fall gr.meas.adopted history⟩ }))) ∧
  ∀ (g : Nat) (s : State),
    (∀ gr, groupAt s g = some gr → windowsRunning s = true → gr.record.window * 10 ≤ gr.meas.elapsed + 1 →
      ∃ t, exec (.measurementWindowExpiry g) s = .next t ∧ exec .monotonicAdvance s = .next t) ∧
    ((∀ gr, groupAt s g = some gr → windowsRunning s = true → gr.meas.elapsed + 1 < gr.record.window * 10) →
      exec (.measurementWindowExpiry g) s = .next s)

/-- R37, R50, R126, R135: at its deadline, and not before (log 2), a guard interval ends with the circuit IDLE at the tail
of the idle list; a CLOSED gap opens and keeps its last pass; a gap's lifetime ends with its entry removed and
reported; and the destination window clears every crankback count and starts again at the length then set. -/
def Obligations.DeadlinesAreMet : Prop :=
  (∀ (g c : Nat) (gr : CircuitGroup) (s : State), groupAt s g = some gr →
    (∀ d, gr.circuits[c]? = some (.guard d) → d ≤ s.time.count →
      ∃ t, exec (.guardExpiry g c) s = .next t ∧ t = { s with groups := t.groups } ∧
        ∀ j, groupAt t j = if j = g then
            some { gr with circuits := gr.circuits.set c (.idle s.time.count), idleList := gr.idleList ++ [c] }
          else groupAt s j) ∧
    ((∀ d, gr.circuits[c]? = some (.guard d) → s.time.count < d) → exec (.guardExpiry g c) s = .next s)) ∧
  (∀ (slot : Nat) (e : GapEntry) (s : State), Table.find s.gap.slots slot = some e →
    (∀ d, e.gapDeadline = some d → d ≤ s.time.count →
      ∃ t, exec (.gapDeadline slot) s = .next t ∧ t = { s with gap := { s.gap with slots := t.gap.slots } } ∧
        ∀ j, Table.find t.gap.slots j =
          if j = slot then some { e with gapDeadline := none } else Table.find s.gap.slots j) ∧
    ((∀ d, e.gapDeadline = some d → s.time.count < d) → exec (.gapDeadline slot) s = .next s) ∧
    (∀ d, e.lifetime = some d → d ≤ s.time.count →
      ∃ t, exec (.gapLifetimeExpiry slot) s = .next t ∧ t = { s with gap := t.gap, link := t.link } ∧
        t.gap.autoList = s.gap.autoList.erase slot ∧
        (∀ j, Table.find t.gap.slots j = if j = slot then none else Table.find s.gap.slots j) ∧
        (s.link.enabled.contains .gap = true → 64 < s.link.free →
          t.link = s.link.enqueue
            (.notice (.gapChange (.expired e.gapped) slot e.digits e.origin e.interval (some 0))))) ∧
    ((∀ d, e.lifetime = some d → s.time.count < d) → exec (.gapLifetimeExpiry slot) s = .next s)) ∧
  ∀ s : State, Table.wf s.num.bankA = true → Table.wf s.num.bankB = true →
    (s.num.destRemaining = 0 → windowsRunning s = true →
      ∃ t, exec .destinationWindowExpiry s = .next t ∧ t = { s with num := t.num } ∧
        t.num.active = s.num.active ∧ t.num.destLength = s.num.destLength ∧
        t.num.destRemaining = s.num.destLength * 10 ∧
        ∀ k i, entryAt t k i = { entryAt s k i with count := 0 }) ∧
    (s.num.destRemaining ≠ 0 ∨ windowsRunning s = false → exec .destinationWindowExpiry s = .next s)

/-- R181: a hold-wait that has reached its deadline frees the call from the held queue with CALL FAILED (ENGINE HELD),
sent or waiting to be sent; a call whose earlier report still waits, which the new one replaces (R17), is left out
here. Before the deadline, and for a call not in the held queue, the expiry command changes nothing (log 2). -/
def Obligations.HoldWaitsEndInCallFailed : Prop :=
  ∀ (i : Nat) (s : State),
    (∀ e c, e ∈ s.eng.held → e.ref = refOf s i → e.deadline ≤ s.time.count → contextAt s i = some c →
      s.ctx.reports.any (fun r => r.1 == i) = false →
      ∃ t, exec (.holdWaitExpiry i) s = .next t ∧ contextAt t i = none ∧
        (∀ j, j ≠ i → contextAt t j = contextAt s j) ∧
        t.eng.held = s.eng.held.filter (fun f => f.ref != refOf s i) ∧ OtherBlocksKept s t ∧
        (0 < s.link.free → Message.report (.callFailed (refOf s i) .engineHeld) ∈ t.link.outQueue ∧
          t.ctx.freeList = s.ctx.freeList ++ [i]) ∧
        (s.link.free = 0 → t.ctx.reports = s.ctx.reports ++ [(i, .callFailed (refOf s i) .engineHeld)] ∧
          t.ctx.freeList = s.ctx.freeList)) ∧
    ((∀ e ∈ s.eng.held, e.ref = refOf s i → s.time.count < e.deadline) →
      exec (.holdWaitExpiry i) s = .next s)

/-! ### Measurement, selection and pricing -/

/-- R116: the adopted level rises to the smallest of the newest U raw levels where that is above it; else it falls by one
where the newest D are all below it; else it stays. -/
def Obligations.AdoptedLevelsRiseAndFall : Prop :=
  ∀ (rise fall adopted : Nat) (history : List Nat), 1 ≤ rise → 1 ≤ fall → (∀ x ∈ history, x ≤ 3) →
    (rise ≤ history.length → (∀ x ∈ history.take rise, adopted < x) →
      adoptLevel rise fall adopted history ∈ history.take rise ∧
      ∀ x ∈ history.take rise, adoptLevel rise fall adopted history ≤ x) ∧
    (history.length < rise ∨ (∃ x ∈ history.take rise, x ≤ adopted) →
      (fall ≤ history.length → (∀ x ∈ history.take fall, x < adopted) →
        adoptLevel rise fall adopted history + 1 = adopted) ∧
      (history.length < fall ∨ (∃ x ∈ history.take fall, adopted ≤ x) →
        adoptLevel rise fall adopted history = adopted))

/-- R25 and R26: the winner of an analysis is a matching entry; no matching entry has more digits; among those with as
many, one with a specific origin is beaten by none without; and among those of its origin kind, one with a specific
class is beaten by none without. There is a winner where an entry matches. R127: the applying gap of a called number is
an entry whose digits are a leading part of it, and none has a longer one; there is one where an entry has. -/
def Obligations.TheWinnerIsTheMostSpecific : Prop :=
  (∀ (bank : Table NumberEntry) (carrier : Nat) (cls : NumberClass) (called : List Nat),
    (∀ i e, winner bank carrier cls called = some (i, e) →
      (i, e) ∈ bank ∧ e.matchesCall carrier cls called = true ∧
      ∀ j f, (j, f) ∈ bank → f.matchesCall carrier cls called = true →
        f.digits.length ≤ e.digits.length ∧
        (f.digits.length = e.digits.length → f.origin.isSpecific = true → e.origin.isSpecific = true) ∧
        (f.digits.length = e.digits.length → f.origin.isSpecific = e.origin.isSpecific →
          f.numClass.isSpecific = true → e.numClass.isSpecific = true)) ∧
    (winner bank carrier cls called = none → ∀ j f, (j, f) ∈ bank → f.matchesCall carrier cls called = false)) ∧
  ∀ (called : List Nat) (s : State),
    (∀ slot e, applyingGap s called = some (slot, e) →
      (slot, e) ∈ s.gap.slots ∧ e.digits <+: called ∧
      ∀ j f, (j, f) ∈ s.gap.slots → f.digits <+: called → f.digits.length ≤ e.digits.length) ∧
    (applyingGap s called = none → ∀ j f, (j, f) ∈ s.gap.slots → ¬ f.digits <+: called)

/-- R76, R77, R79: without a table fault a SEQUENTIAL list takes its first admissible candidate and evaluates none behind
it; a CHEAPEST list takes an admissible candidate whose estimate no admissible one undercuts, the earliest of its
equals; and where none is admissible the cause is UNECONOMIC if some failed the margin guard and none capacity, else
CONGESTED. R53 to R56: a hunt of a group without IDLE circuits changes nothing; else it takes an IDLE circuit, on a
BOTHWAY group a controlled one where one is IDLE, and of its kind the lowest, the highest, the first after the rotate
pointer with wrapping, or the one nearest the head of the idle list; the circuit leaves the idle list and is OUT for
the context since now, seizures rises by one, and under ROTATE the pointer moves to it. -/
def Obligations.PoliciesChooseAndGroupsAreHunted : Prop :=
  (∀ l : List Candidate, (∀ c ∈ l, c.isFault = false) →
    (∀ pre c post, l = pre ++ c :: post → (∀ x ∈ pre, x.isAdmissible = false) → c.isAdmissible = true →
      evaluated .sequential l = pre ++ [c] ∧
      outcomeOf .sequential (evaluated .sequential l) = .chosen c.position c.group) ∧
    (∀ pre c post, l = pre ++ c :: post → c.isAdmissible = true →
      (∀ x ∈ pre, x.isAdmissible = true → c.estimate < x.estimate) →
      (∀ x ∈ post, x.isAdmissible = true → c.estimate ≤ x.estimate) →
      evaluated .cheapest l = l ∧ outcomeOf .cheapest (evaluated .cheapest l) = .chosen c.position c.group) ∧
    ((∀ c ∈ l, c.isAdmissible = false) → ∀ p, outcomeOf p (evaluated p l) = .none
      (if (∃ c ∈ l, c.isUneconomic = true) ∧ (∀ c ∈ l, c.isFull = false) then .uneconomic else .congested))) ∧
  ∀ (g ref : Nat) (gr : CircuitGroup) (s : State), groupAt s g = some gr → gr.IdleListExact →
    ((∀ c, gr.idleAt c = false) → gr.pick = none ∧ hunt g ref s = (s, none)) ∧
    ∀ k, gr.idleAt k = true →
      ∃ c t gr' cs, gr.pick = some c ∧ hunt g ref s = (t, some c) ∧ gr.idleAt c = true ∧
        (gr.record.direction = .bothway → controlled gr.record.parity k = true →
          controlled gr.record.parity c = true) ∧
        ((gr.record.direction = .bothway → controlled gr.record.parity k = controlled gr.record.parity c) →
          match gr.record.hunting with
          | .ascending => c ≤ k
          | .descending => k ≤ c
          | .rotate => ∀ turn, turn = (fun n => (n + (gr.circuits.length - (gr.rotate + 1) % gr.circuits.length)) %
              gr.circuits.length) → turn c ≤ turn k
          | .longestIdle => gr.idleList.idxOf c ≤ gr.idleList.idxOf k) ∧
        t = { s with groups := t.groups, link := t.link } ∧
        (∀ j, groupAt t j = if j = g then some gr' else groupAt s j) ∧
        gr' = { gr with
          circuits := gr.circuits.set c (.out ref s.time.count false), idleList := gr.idleList.erase c,
          rotate := if gr.record.hunting = .rotate then c else gr.rotate, counters := cs } ∧
        cs.seizures.value = gr.counters.seizures.value + 1 ∧ ∀ n, n ≠ .seizures → cs.get n = gr.counters.get n


/-- R155: the duration of an ANSWERED call, clamped at 24 hours with LONG set where it was longer, and its conversation
seconds, part-seconds rounded up, at least 1 and at most 86,400. R156: an entry of a band split holds as many seconds
as the conversation seconds that begin in its day class and band, each second has an entry, no pair of day class and
band stands twice, and the entries stand in the order in which their pairs first occur; the seconds sum to the
conversation's; with the answer UNSET the split is the single entry WEEKDAY band 0. -/
def Obligations.CallsAreTimedAndSplitByBand : Prop :=
  (∀ (s : State) (c : Context) (a : Nat), c.answerCount = some a → a ≤ s.time.count →
    (rateContext s c).duration = min 864000 (s.time.count - a) ∧
    ((rateContext s c).flags.long = true ↔ 864000 < s.time.count - a) ∧
    1 ≤ (rateContext s c).seconds ∧ (rateContext s c).seconds ≤ 86400 ∧
    (rateContext s c).duration ≤ 10 * (rateContext s c).seconds ∧
    ((rateContext s c).seconds = 1 ∨ 10 * (rateContext s c).seconds < (rateContext s c).duration + 10) ∧
    (rateContext s c).split = bandSplit s.time (c.answerWall.getD none) (rateContext s c).seconds) ∧
  ∀ (tb : TimeBase) (answer : Wall) (seconds : Nat) (band : Nat → DayClass × Nat),
    band = (fun n => bandOrFirst tb (addDs answer (10 * n))) →
    ((bandSplit tb answer seconds).map (·.seconds)).sum = seconds ∧
    ((bandSplit tb answer seconds).map (fun e => (e.dayClass, e.band))).Nodup ∧
    (∀ e ∈ bandSplit tb answer seconds, 1 ≤ e.seconds ∧
      e.seconds = (List.range seconds).countP (fun n => band n == (e.dayClass, e.band))) ∧
    (∀ n, n < seconds → ∃ e ∈ bandSplit tb answer seconds, (e.dayClass, e.band) = band n) ∧
    (bandSplit tb answer seconds).Pairwise (fun e f =>
      ∃ n, n < seconds ∧ band n = (e.dayClass, e.band) ∧ ∀ m, m ≤ n → band m ≠ (f.dayClass, f.band)) ∧
    (answer = none → 1 ≤ seconds → bandSplit tb answer seconds = [⟨.weekday, 0, seconds⟩])

/-- R158, R159, R160: a computed side bills its first period, or whole steps past it, never less than the seconds and
less than a step more; its charge is its fee and the priced sum with premium, rounded half up, never below the fee
nor above 2,891,966,667 pu; an OWN side is 0. -/
def Obligations.ComputedSidesAreBounded : Prop :=
  ∀ (tariff : Tariff) (first step premium seconds : Nat) (revision : BitVec 16) (split : List SplitEntry)
    (extra : DayClass × Nat), 1 ≤ step → step ≤ 60 → first ≤ 600 → premium ≤ 100 → 1 ≤ seconds → seconds ≤ 86400 →
    (split.map (·.seconds)).sum = seconds → tariff.fee ≤ 10000000 →
    (∀ c b, tariff.rates.at c b ≤ 1000000) →
    priceSide true tariff first step premium revision split extra seconds = ⟨true, 0, 0, revision⟩ ∧
    ∃ billed charge, priceSide false tariff first step premium revision split extra seconds =
        ⟨false, billed, charge, revision⟩ ∧
      seconds ≤ billed ∧ (seconds ≤ first → billed = first) ∧
      (first < seconds → billed < seconds + step ∧ ∃ n, billed = first + n * step) ∧
      tariff.fee ≤ charge ∧ charge ≤ 2891966667 ∧
      charge = tariff.fee +
        (((addSeconds extra.1 extra.2 (billed - seconds) split).map
          (fun e => e.seconds * tariff.rates.at e.dayClass e.band)).sum * (100 + premium) + 3000) / 6000

/-! ### What no command breaks -/

/-- R22: only BANK SWAP and the cold restart change the active-bank selector. R40: a group stays defined until the
next cold restart, and becomes defined only by a GROUP DEFINE that names it. -/
def Obligations.SelectorAndGroupsChangeOnlyByTheirCommands : Prop :=
  (∀ (c : Instr) (s t : State), exec c s = .next t → (∀ tag x, c ≠ .bankSwap tag x) → isCold c = false →
     t.num.active = s.num.active) ∧
  ∀ (c : Instr) (s t : State) (g : Nat), exec c s = .next t → isCold c = false →
    (groupAt s g ≠ none → groupAt t g ≠ none) ∧
    (groupAt s g = none → (∀ tag f, c ≠ .groupDefine tag g f) → groupAt t g = none)

/-- The tables keep their canonical form. -/
def Obligations.TablesStayCanonical : Prop :=
  ∀ s t : State, TablesCanonical s → step s = .next t → TablesCanonical t

/-- R45, R46: every group's idle list keeps holding exactly its IDLE circuits, each once. -/
def Obligations.IdleListsStayExact : Prop :=
  ∀ s t : State, IdleListsExact s → step s = .next t → IdleListsExact t

/-- R17, R166, R180, R191 to R193: the bounded stores stay within their bounds, nothing stays reserved between events,
and a call report waits only while no place is free. -/
def Obligations.StoresStayBounded : Prop :=
  ∀ s t : State, StoresBounded s → step s = .next t → StoresBounded t

/-- R174, R179: reason, stepped context and held queue keep agreeing with the engine state. -/
def Obligations.EngineStaysCoherent : Prop :=
  ∀ s t : State, EngineCoherent s → step s = .next t → EngineCoherent t

/-- R2, R17, R180: generations, the free list and the held queue keep agreeing with the contexts in use. -/
def Obligations.ContextsStayCoherent : Prop :=
  ∀ s t : State, ContextsCoherent s → step s = .next t → ContextsCoherent t

/-- R196: after every event the set of standing conditions is the one the state calls for. -/
def Obligations.ConditionsStayTrue : Prop :=
  ∀ s t : State, TablesCanonical s → ContextsCoherent s → ConditionsTrue s → step s = .next t → ConditionsTrue t

/-- R6, R37, R40, R66, R107, R171, R180: settings and group records stay in their ranges. -/
def Obligations.SettingsAndGroupsStayInRange : Prop :=
  ∀ s t : State, SettingsInRange s → GroupsInRange s → step s = .next t → SettingsInRange t ∧ GroupsInRange t

/-- The gap table, and the keys of the number banks, stay coherent: R24: no bank holds two enabled entries with identical
keys; R125, R126: slots, digits and the automatic list agree, and a CLOSED gap opens one interval after its last
pass. -/
def Obligations.KeysAndGapsStayCoherent : Prop :=
  (∀ s t : State, TablesCanonical s → KeysUnique s → step s = .next t → KeysUnique t) ∧
  ∀ s t : State, GapsCoherent s → step s = .next t → GapsCoherent t

/-- R4: attempt lists keep at most 8 records, no group twice, and only the newest holding a circuit. R166: the records of
the settlement queue keep consecutive sequence numbers, and the counter holds the next. R15, R167: the CLOSING list
keeps exactly the CLOSING contexts, with their records, and there are any only while the settlement queue is full. -/
def Obligations.AttemptsAndRecordsStayCoherent : Prop :=
  (∀ s t : State, SettingsInRange s → ContextsCoherent s → AttemptsGood s → step s = .next t → AttemptsGood t) ∧
  (∀ s t : State, RecordsConsecutive s → step s = .next t → RecordsConsecutive t) ∧
  ∀ s t : State, ContextsCoherent s → ClosingCoherent s → step s = .next t → ClosingCoherent t

/-- The state after reset has every property above, and the values that the spec states for reset. -/
def Obligations.ResetHasEveryProperty : Prop :=
  TablesCanonical State.reset ∧ IdleListsExact State.reset ∧ StoresBounded State.reset ∧ EngineCoherent State.reset ∧
  ContextsCoherent State.reset ∧ ConditionsTrue State.reset ∧ SettingsInRange State.reset ∧
  GroupsInRange State.reset ∧ GapsCoherent State.reset ∧ KeysUnique State.reset ∧ AttemptsGood State.reset ∧
  RecordsConsecutive State.reset ∧ ClosingCoherent State.reset ∧
  freeCount State.reset = 8192 ∧ State.reset.eng.state = .held ∧ State.reset.eng.reason = .start ∧
  State.reset.link.enabled = [.fault, .engine, .condition] ∧ State.reset.linkReady = true ∧
  State.reset.attn = true ∧ State.reset.time.wall = none ∧ State.reset.num.active = .a ∧
  State.reset.rate.seq = 0 ∧ (∀ k i, entryAt State.reset k i = ⟨.any, .any, [], .bar, 0, 10, 300, 0⟩) ∧
  (∀ g, groupAt State.reset g = none) ∧ (∀ n, agreement State.reset n = Carrier.zero)
end

