-- ==== Sys2Proof/Machine/Layouts.lean ====
section
/-! DEFINITION. What leaves on LINK TXD in bytes: the kinds of the messages, the frame, and the layouts of ROUTE and of
the settlement record (11, sections 11.8 and 11.9). -/

namespace Sys2Proof.Machine

open Sys2Proof

/-- A number as `n` bytes, most significant first (11, section 11.9). -/
def bytesOf : Nat → Nat → List Byte
  | 0, _ => []
  | n + 1, v => BitVec.ofNat 8 (v / 256 ^ n) :: bytesOf n v

/-- A frame from its kind, tag and body: the sync pair, the length, and the CRC over length, kind, tag and body (R190, 11,
section 11.9). -/
def frameBytes (f : Frame) : List Byte :=
  let covered := bytesOf 2 f.body.length ++ f.kind :: bytesOf 2 f.tag.toNat ++ f.body
  sync1 :: sync2 :: covered ++ bytesOf 2 (crcOf covered).toNat

/-- The kind of a reply (11, section 11.8). -/
def Reply.kind : Reply → Byte
  | .done _ => 128
  | .route .. => 129
  | .queued _ => 130
  | .refuse .. => 131
  | .reject .. => 132

/-- The kind of a call report (11, section 11.8). -/
def CallReport.kind : CallReport → Byte
  | .routeReport .. => 144
  | .callFailed .. => 145

/-- The kind of a notice (11, section 11.8). -/
def Notice.kind : Notice → Byte
  | .congestionChange .. => 160
  | .measurementReport .. => 161
  | .gapChange .. => 162
  | .gapTableFull .. => 163
  | .tableFault .. => 164
  | .engineState .. => 165
  | .counterWrap .. => 166
  | .circuitAutoBlocked .. => 167
  | .condition .. => 168

/-- The kind of a message (11, section 11.8). -/
def Message.kind : Message → Byte
  | .reply _ r => r.kind
  | .report r => r.kind
  | .notice n => n.kind
  | .restarted _ => 169

/-- The tag of a message: 0 on call reports, notices and RESTARTED (R193, 11, section 11.9). -/
def Message.tag : Message → Tag
  | .reply tag _ => tag
  | _ => 0

/-- The body of a ROUTE reply (11, section 11.9). -/
def routeBody (ref group circuit position attempt : Nat) : List Byte :=
  bytesOf 2 ref ++ bytesOf 2 group ++ bytesOf 2 circuit ++ bytesOf 1 position ++ bytesOf 1 attempt

/-- The code of a day class (11, section 11.9, offset 32). -/
def DayClass.code : DayClass → Nat
  | .weekday => 0
  | .weekend => 1
  | .holiday => 2

/-- A day class in bits 7 to 4 and a band in bits 3 to 0 (11, section 11.9, offset 32). -/
def bandByte (c : DayClass) (band : Nat) : List Byte := bytesOf 1 (DayClass.code c * 16 + band)

/-- The answer wall time: year less 2000, month, day, time of day; 255 and zeros when UNSET (11, section 11.9, offsets 16
to 22). -/
def wallBytes : Wall → List Byte
  | none => bytesOf 1 255 ++ bytesOf 1 0 ++ bytesOf 1 0 ++ bytesOf 4 0
  | some w =>
    bytesOf 1 (w.date.year - 2000) ++ bytesOf 1 w.date.month ++ bytesOf 1 w.date.day ++ bytesOf 4 w.tod

/-- The flags of a record, LONG in bit 0 to PREMIUM in bit 4 (R162, 11, section 11.9, offset 31). -/
def flagByte (f : RecordFlags) : List Byte :=
  bytesOf 1 (f.long.toNat + 2 * f.timeUnset.toNat + 4 * f.timeStep.toNat + 8 * f.restart.toNat + 16 * f.premium.toNat)

/-- One side of a record: 0 computed or 1 OWN, B, charge, tariff revision (11, section 11.9, offsets 33 to 54). -/
def sideBytes (x : Side) : List Byte :=
  bytesOf 1 x.own.toNat ++ bytesOf 4 x.billed ++ bytesOf 4 x.charge ++ bytesOf 2 x.revision.toNat

/-- One entry of a record's band split (11, section 11.9, offset 56). -/
def splitBytes (e : SplitEntry) : List Byte := bandByte e.dayClass e.band ++ bytesOf 3 e.seconds

/-- A settlement record as the reply to READ RECORDS carries it (11, section 11.9). -/
def recordLayout (r : Record) : List Byte :=
  bytesOf 4 r.seq.toNat ++ bytesOf 4 r.body.callId.toNat ++ bytesOf 2 r.body.inGroup ++ bytesOf 1 r.body.inCarrier ++
  bytesOf 2 r.body.outGroup ++ bytesOf 1 r.body.outCarrier ++ bytesOf 1 r.body.position ++ bytesOf 1 r.body.attempts ++
  wallBytes r.body.answerWall ++ bytesOf 4 r.body.duration ++ bytesOf 4 r.body.seconds ++ flagByte r.body.flags ++
  bandByte r.body.extraClass r.body.extraBand ++ sideBytes r.body.receivable ++ sideBytes r.body.payable ++
  bytesOf 1 r.body.split.length ++ r.body.split.flatMap splitBytes

/-- The frame of a message whose body has a layout, which of the messages from the part only ROUTE's has (11, section
11.9; log 6). -/
def Message.frame : Message → Option Frame
  | .reply tag (.route ref group circuit position attempt) =>
    some ⟨129, tag, routeBody ref group circuit position attempt⟩
  | _ => none

end Sys2Proof.Machine
end

