-- ==== Sys2Proof/Laws/Layouts.lean ====
section
/-! SUPPORT. Lengths of the layouts of 11, section 11.9. -/

namespace Sys2Proof.Machine

open Sys2Proof

@[simp] theorem length_bytesOf (n v : Nat) : (bytesOf n v).length = n := by
  induction n with
  | zero => rfl
  | succ n ih => simp [bytesOf, ih]

@[simp] theorem length_wallBytes (w : Wall) : (wallBytes w).length = 7 := by
  cases w <;> simp [wallBytes]

@[simp] theorem length_sideBytes (x : Side) : (sideBytes x).length = 11 := by simp [sideBytes]

@[simp] theorem length_splitBytes (e : SplitEntry) : (splitBytes e).length = 4 := by simp [splitBytes, bandByte]

theorem length_flatMap_splitBytes (l : List SplitEntry) : (l.flatMap splitBytes).length = 4 * l.length := by
  induction l with
  | nil => rfl
  | cons e t ih => simp [ih]; omega

/-- A record's layout has the length by which READ RECORDS counts it (R168). -/
theorem length_recordLayout (r : Record) : (recordLayout r).length = recordBytes r := by
  simp only [recordLayout, List.length_append, length_bytesOf, length_wallBytes, length_sideBytes, flagByte, bandByte,
    length_flatMap_splitBytes, recordBytes]

/-- A ROUTE body has 8 bytes. -/
theorem length_routeBody (ref g k p n : Nat) : (routeBody ref g k p n).length = 8 := by simp [routeBody]

end Sys2Proof.Machine
end

