-- ==== Sys2Proof/Laws/State.lean ====
section
/-! SUPPORT. The frame of every shared operation: one lemma for each block that the operation leaves as it was. -/

namespace Sys2Proof.Machine

open Sys2Proof

@[simp] theorem postNotice_ctx (n : Notice) (s : State) : (postNotice n s).ctx = s.ctx := rfl
@[simp] theorem postNotice_num (n : Notice) (s : State) : (postNotice n s).num = s.num := rfl
@[simp] theorem postNotice_groups (n : Notice) (s : State) : (postNotice n s).groups = s.groups := rfl
@[simp] theorem postNotice_sel (n : Notice) (s : State) : (postNotice n s).sel = s.sel := rfl
@[simp] theorem postNotice_gap (n : Notice) (s : State) : (postNotice n s).gap = s.gap := rfl
@[simp] theorem postNotice_time (n : Notice) (s : State) : (postNotice n s).time = s.time := rfl
@[simp] theorem postNotice_rate (n : Notice) (s : State) : (postNotice n s).rate = s.rate := rfl
@[simp] theorem postNotice_eng (n : Notice) (s : State) : (postNotice n s).eng = s.eng := rfl
@[simp] theorem postNotice_pending (n : Notice) (s : State) : (postNotice n s).pending = s.pending := rfl
@[simp] theorem sendReply_ctx (tag : Tag) (r : Reply) (s : State) : (sendReply tag r s).ctx = s.ctx := rfl
@[simp] theorem sendReply_num (tag : Tag) (r : Reply) (s : State) : (sendReply tag r s).num = s.num := rfl
@[simp] theorem sendReply_groups (tag : Tag) (r : Reply) (s : State) : (sendReply tag r s).groups = s.groups := rfl
@[simp] theorem sendReply_sel (tag : Tag) (r : Reply) (s : State) : (sendReply tag r s).sel = s.sel := rfl
@[simp] theorem sendReply_gap (tag : Tag) (r : Reply) (s : State) : (sendReply tag r s).gap = s.gap := rfl
@[simp] theorem sendReply_time (tag : Tag) (r : Reply) (s : State) : (sendReply tag r s).time = s.time := rfl
@[simp] theorem sendReply_rate (tag : Tag) (r : Reply) (s : State) : (sendReply tag r s).rate = s.rate := rfl
@[simp] theorem sendReply_eng (tag : Tag) (r : Reply) (s : State) : (sendReply tag r s).eng = s.eng := rfl
@[simp] theorem sendReply_pending (tag : Tag) (r : Reply) (s : State) : (sendReply tag r s).pending = s.pending := rfl
@[simp] theorem releasePlace_ctx (s : State) : (releasePlace s).ctx = s.ctx := rfl
@[simp] theorem releasePlace_num (s : State) : (releasePlace s).num = s.num := rfl
@[simp] theorem releasePlace_groups (s : State) : (releasePlace s).groups = s.groups := rfl
@[simp] theorem releasePlace_sel (s : State) : (releasePlace s).sel = s.sel := rfl
@[simp] theorem releasePlace_gap (s : State) : (releasePlace s).gap = s.gap := rfl
@[simp] theorem releasePlace_time (s : State) : (releasePlace s).time = s.time := rfl
@[simp] theorem releasePlace_rate (s : State) : (releasePlace s).rate = s.rate := rfl
@[simp] theorem releasePlace_eng (s : State) : (releasePlace s).eng = s.eng := rfl
@[simp] theorem releasePlace_pending (s : State) : (releasePlace s).pending = s.pending := rfl
@[simp] theorem sendReserved_ctx (m : Message) (s : State) : (sendReserved m s).ctx = s.ctx := rfl
@[simp] theorem sendReserved_num (m : Message) (s : State) : (sendReserved m s).num = s.num := rfl
@[simp] theorem sendReserved_groups (m : Message) (s : State) : (sendReserved m s).groups = s.groups := rfl
@[simp] theorem sendReserved_sel (m : Message) (s : State) : (sendReserved m s).sel = s.sel := rfl
@[simp] theorem sendReserved_gap (m : Message) (s : State) : (sendReserved m s).gap = s.gap := rfl
@[simp] theorem sendReserved_time (m : Message) (s : State) : (sendReserved m s).time = s.time := rfl
@[simp] theorem sendReserved_rate (m : Message) (s : State) : (sendReserved m s).rate = s.rate := rfl
@[simp] theorem sendReserved_eng (m : Message) (s : State) : (sendReserved m s).eng = s.eng := rfl
@[simp] theorem sendReserved_pending (m : Message) (s : State) : (sendReserved m s).pending = s.pending := rfl
@[simp] theorem arrive_ctx (isMine : Frame → Bool) (f : Frame) (s : State) :
    (arrive isMine f s).ctx = s.ctx := by unfold arrive; split <;> rfl
@[simp] theorem arrive_num (isMine : Frame → Bool) (f : Frame) (s : State) :
    (arrive isMine f s).num = s.num := by unfold arrive; split <;> rfl
@[simp] theorem arrive_groups (isMine : Frame → Bool) (f : Frame) (s : State) :
    (arrive isMine f s).groups = s.groups := by unfold arrive; split <;> rfl
@[simp] theorem arrive_sel (isMine : Frame → Bool) (f : Frame) (s : State) :
    (arrive isMine f s).sel = s.sel := by unfold arrive; split <;> rfl
@[simp] theorem arrive_gap (isMine : Frame → Bool) (f : Frame) (s : State) :
    (arrive isMine f s).gap = s.gap := by unfold arrive; split <;> rfl
@[simp] theorem arrive_time (isMine : Frame → Bool) (f : Frame) (s : State) :
    (arrive isMine f s).time = s.time := by unfold arrive; split <;> rfl
@[simp] theorem arrive_rate (isMine : Frame → Bool) (f : Frame) (s : State) :
    (arrive isMine f s).rate = s.rate := by unfold arrive; split <;> rfl
@[simp] theorem arrive_eng (isMine : Frame → Bool) (f : Frame) (s : State) :
    (arrive isMine f s).eng = s.eng := by unfold arrive; split <;> rfl
@[simp] theorem arrive_pending (isMine : Frame → Bool) (f : Frame) (s : State) :
    (arrive isMine f s).pending = s.pending := by unfold arrive; split <;> rfl
@[simp] theorem rejectTaken_ctx (kind : Byte) (tag : Tag) (x : RejectReason) (s : State) : (rejectTaken kind tag x s).ctx = s.ctx := rfl
@[simp] theorem rejectTaken_num (kind : Byte) (tag : Tag) (x : RejectReason) (s : State) : (rejectTaken kind tag x s).num = s.num := rfl
@[simp] theorem rejectTaken_groups (kind : Byte) (tag : Tag) (x : RejectReason) (s : State) : (rejectTaken kind tag x s).groups = s.groups := rfl
@[simp] theorem rejectTaken_sel (kind : Byte) (tag : Tag) (x : RejectReason) (s : State) : (rejectTaken kind tag x s).sel = s.sel := rfl
@[simp] theorem rejectTaken_gap (kind : Byte) (tag : Tag) (x : RejectReason) (s : State) : (rejectTaken kind tag x s).gap = s.gap := rfl
@[simp] theorem rejectTaken_time (kind : Byte) (tag : Tag) (x : RejectReason) (s : State) : (rejectTaken kind tag x s).time = s.time := rfl
@[simp] theorem rejectTaken_rate (kind : Byte) (tag : Tag) (x : RejectReason) (s : State) : (rejectTaken kind tag x s).rate = s.rate := rfl
@[simp] theorem rejectTaken_eng (kind : Byte) (tag : Tag) (x : RejectReason) (s : State) : (rejectTaken kind tag x s).eng = s.eng := rfl
@[simp] theorem rejectTaken_pending (kind : Byte) (tag : Tag) (x : RejectReason) (s : State) : (rejectTaken kind tag x s).pending = s.pending := rfl
@[simp] theorem putContext_link (i : Nat) (c : Context) (s : State) : (putContext i c s).link = s.link := rfl
@[simp] theorem putContext_num (i : Nat) (c : Context) (s : State) : (putContext i c s).num = s.num := rfl
@[simp] theorem putContext_groups (i : Nat) (c : Context) (s : State) : (putContext i c s).groups = s.groups := rfl
@[simp] theorem putContext_sel (i : Nat) (c : Context) (s : State) : (putContext i c s).sel = s.sel := rfl
@[simp] theorem putContext_gap (i : Nat) (c : Context) (s : State) : (putContext i c s).gap = s.gap := rfl
@[simp] theorem putContext_time (i : Nat) (c : Context) (s : State) : (putContext i c s).time = s.time := rfl
@[simp] theorem putContext_rate (i : Nat) (c : Context) (s : State) : (putContext i c s).rate = s.rate := rfl
@[simp] theorem putContext_eng (i : Nat) (c : Context) (s : State) : (putContext i c s).eng = s.eng := rfl
@[simp] theorem putContext_pending (i : Nat) (c : Context) (s : State) : (putContext i c s).pending = s.pending := rfl
@[simp] theorem modifyContext_link (i : Nat) (f : Context → Context) (s : State) : (modifyContext i f s).link = s.link := rfl
@[simp] theorem modifyContext_num (i : Nat) (f : Context → Context) (s : State) : (modifyContext i f s).num = s.num := rfl
@[simp] theorem modifyContext_groups (i : Nat) (f : Context → Context) (s : State) : (modifyContext i f s).groups = s.groups := rfl
@[simp] theorem modifyContext_sel (i : Nat) (f : Context → Context) (s : State) : (modifyContext i f s).sel = s.sel := rfl
@[simp] theorem modifyContext_gap (i : Nat) (f : Context → Context) (s : State) : (modifyContext i f s).gap = s.gap := rfl
@[simp] theorem modifyContext_time (i : Nat) (f : Context → Context) (s : State) : (modifyContext i f s).time = s.time := rfl
@[simp] theorem modifyContext_rate (i : Nat) (f : Context → Context) (s : State) : (modifyContext i f s).rate = s.rate := rfl
@[simp] theorem modifyContext_eng (i : Nat) (f : Context → Context) (s : State) : (modifyContext i f s).eng = s.eng := rfl
@[simp] theorem modifyContext_pending (i : Nat) (f : Context → Context) (s : State) : (modifyContext i f s).pending = s.pending := rfl
@[simp] theorem modifyGroup_link (g : Nat) (f : CircuitGroup → CircuitGroup) (s : State) : (modifyGroup g f s).link = s.link := rfl
@[simp] theorem modifyGroup_ctx (g : Nat) (f : CircuitGroup → CircuitGroup) (s : State) : (modifyGroup g f s).ctx = s.ctx := rfl
@[simp] theorem modifyGroup_num (g : Nat) (f : CircuitGroup → CircuitGroup) (s : State) : (modifyGroup g f s).num = s.num := rfl
@[simp] theorem modifyGroup_sel (g : Nat) (f : CircuitGroup → CircuitGroup) (s : State) : (modifyGroup g f s).sel = s.sel := rfl
@[simp] theorem modifyGroup_gap (g : Nat) (f : CircuitGroup → CircuitGroup) (s : State) : (modifyGroup g f s).gap = s.gap := rfl
@[simp] theorem modifyGroup_time (g : Nat) (f : CircuitGroup → CircuitGroup) (s : State) : (modifyGroup g f s).time = s.time := rfl
@[simp] theorem modifyGroup_rate (g : Nat) (f : CircuitGroup → CircuitGroup) (s : State) : (modifyGroup g f s).rate = s.rate := rfl
@[simp] theorem modifyGroup_eng (g : Nat) (f : CircuitGroup → CircuitGroup) (s : State) : (modifyGroup g f s).eng = s.eng := rfl
@[simp] theorem modifyGroup_pending (g : Nat) (f : CircuitGroup → CircuitGroup) (s : State) : (modifyGroup g f s).pending = s.pending := rfl
@[simp] theorem putGroup_link (g : Nat) (gr : CircuitGroup) (s : State) : (putGroup g gr s).link = s.link := rfl
@[simp] theorem putGroup_ctx (g : Nat) (gr : CircuitGroup) (s : State) : (putGroup g gr s).ctx = s.ctx := rfl
@[simp] theorem putGroup_num (g : Nat) (gr : CircuitGroup) (s : State) : (putGroup g gr s).num = s.num := rfl
@[simp] theorem putGroup_sel (g : Nat) (gr : CircuitGroup) (s : State) : (putGroup g gr s).sel = s.sel := rfl
@[simp] theorem putGroup_gap (g : Nat) (gr : CircuitGroup) (s : State) : (putGroup g gr s).gap = s.gap := rfl
@[simp] theorem putGroup_time (g : Nat) (gr : CircuitGroup) (s : State) : (putGroup g gr s).time = s.time := rfl
@[simp] theorem putGroup_rate (g : Nat) (gr : CircuitGroup) (s : State) : (putGroup g gr s).rate = s.rate := rfl
@[simp] theorem putGroup_eng (g : Nat) (gr : CircuitGroup) (s : State) : (putGroup g gr s).eng = s.eng := rfl
@[simp] theorem putGroup_pending (g : Nat) (gr : CircuitGroup) (s : State) : (putGroup g gr s).pending = s.pending := rfl
@[simp] theorem putGap_link (i : Nat) (e : GapEntry) (s : State) : (putGap i e s).link = s.link := rfl
@[simp] theorem putGap_ctx (i : Nat) (e : GapEntry) (s : State) : (putGap i e s).ctx = s.ctx := rfl
@[simp] theorem putGap_num (i : Nat) (e : GapEntry) (s : State) : (putGap i e s).num = s.num := rfl
@[simp] theorem putGap_groups (i : Nat) (e : GapEntry) (s : State) : (putGap i e s).groups = s.groups := rfl
@[simp] theorem putGap_sel (i : Nat) (e : GapEntry) (s : State) : (putGap i e s).sel = s.sel := rfl
@[simp] theorem putGap_time (i : Nat) (e : GapEntry) (s : State) : (putGap i e s).time = s.time := rfl
@[simp] theorem putGap_rate (i : Nat) (e : GapEntry) (s : State) : (putGap i e s).rate = s.rate := rfl
@[simp] theorem putGap_eng (i : Nat) (e : GapEntry) (s : State) : (putGap i e s).eng = s.eng := rfl
@[simp] theorem putGap_pending (i : Nat) (e : GapEntry) (s : State) : (putGap i e s).pending = s.pending := rfl
@[simp] theorem removeGap_link (i : Nat) (s : State) : (removeGap i s).link = s.link := rfl
@[simp] theorem removeGap_ctx (i : Nat) (s : State) : (removeGap i s).ctx = s.ctx := rfl
@[simp] theorem removeGap_num (i : Nat) (s : State) : (removeGap i s).num = s.num := rfl
@[simp] theorem removeGap_groups (i : Nat) (s : State) : (removeGap i s).groups = s.groups := rfl
@[simp] theorem removeGap_sel (i : Nat) (s : State) : (removeGap i s).sel = s.sel := rfl
@[simp] theorem removeGap_time (i : Nat) (s : State) : (removeGap i s).time = s.time := rfl
@[simp] theorem removeGap_rate (i : Nat) (s : State) : (removeGap i s).rate = s.rate := rfl
@[simp] theorem removeGap_eng (i : Nat) (s : State) : (removeGap i s).eng = s.eng := rfl
@[simp] theorem removeGap_pending (i : Nat) (s : State) : (removeGap i s).pending = s.pending := rfl
@[simp] theorem createAuto_link (i : Nat) (e : GapEntry) (s : State) : (createAuto i e s).link = s.link := rfl
@[simp] theorem createAuto_ctx (i : Nat) (e : GapEntry) (s : State) : (createAuto i e s).ctx = s.ctx := rfl
@[simp] theorem createAuto_num (i : Nat) (e : GapEntry) (s : State) : (createAuto i e s).num = s.num := rfl
@[simp] theorem createAuto_groups (i : Nat) (e : GapEntry) (s : State) : (createAuto i e s).groups = s.groups := rfl
@[simp] theorem createAuto_sel (i : Nat) (e : GapEntry) (s : State) : (createAuto i e s).sel = s.sel := rfl
@[simp] theorem createAuto_time (i : Nat) (e : GapEntry) (s : State) : (createAuto i e s).time = s.time := rfl
@[simp] theorem createAuto_rate (i : Nat) (e : GapEntry) (s : State) : (createAuto i e s).rate = s.rate := rfl
@[simp] theorem createAuto_eng (i : Nat) (e : GapEntry) (s : State) : (createAuto i e s).eng = s.eng := rfl
@[simp] theorem createAuto_pending (i : Nat) (e : GapEntry) (s : State) : (createAuto i e s).pending = s.pending := rfl
@[simp] theorem leaveHeld_link (x : Nat) (s : State) : (leaveHeld x s).link = s.link := rfl
@[simp] theorem leaveHeld_ctx (x : Nat) (s : State) : (leaveHeld x s).ctx = s.ctx := rfl
@[simp] theorem leaveHeld_num (x : Nat) (s : State) : (leaveHeld x s).num = s.num := rfl
@[simp] theorem leaveHeld_groups (x : Nat) (s : State) : (leaveHeld x s).groups = s.groups := rfl
@[simp] theorem leaveHeld_sel (x : Nat) (s : State) : (leaveHeld x s).sel = s.sel := rfl
@[simp] theorem leaveHeld_gap (x : Nat) (s : State) : (leaveHeld x s).gap = s.gap := rfl
@[simp] theorem leaveHeld_time (x : Nat) (s : State) : (leaveHeld x s).time = s.time := rfl
@[simp] theorem leaveHeld_rate (x : Nat) (s : State) : (leaveHeld x s).rate = s.rate := rfl
@[simp] theorem leaveHeld_pending (x : Nat) (s : State) : (leaveHeld x s).pending = s.pending := rfl
@[simp] theorem enterHeld_link (i p : Nat) (s : State) : (enterHeld i p s).link = s.link := rfl
@[simp] theorem enterHeld_num (i p : Nat) (s : State) : (enterHeld i p s).num = s.num := rfl
@[simp] theorem enterHeld_groups (i p : Nat) (s : State) : (enterHeld i p s).groups = s.groups := rfl
@[simp] theorem enterHeld_sel (i p : Nat) (s : State) : (enterHeld i p s).sel = s.sel := rfl
@[simp] theorem enterHeld_gap (i p : Nat) (s : State) : (enterHeld i p s).gap = s.gap := rfl
@[simp] theorem enterHeld_time (i p : Nat) (s : State) : (enterHeld i p s).time = s.time := rfl
@[simp] theorem enterHeld_rate (i p : Nat) (s : State) : (enterHeld i p s).rate = s.rate := rfl
@[simp] theorem enterHeld_pending (i p : Nat) (s : State) : (enterHeld i p s).pending = s.pending := rfl
@[simp] theorem clearAllCounts_link (s : State) : (clearAllCounts s).link = s.link := rfl
@[simp] theorem clearAllCounts_ctx (s : State) : (clearAllCounts s).ctx = s.ctx := rfl
@[simp] theorem clearAllCounts_groups (s : State) : (clearAllCounts s).groups = s.groups := rfl
@[simp] theorem clearAllCounts_sel (s : State) : (clearAllCounts s).sel = s.sel := rfl
@[simp] theorem clearAllCounts_gap (s : State) : (clearAllCounts s).gap = s.gap := rfl
@[simp] theorem clearAllCounts_time (s : State) : (clearAllCounts s).time = s.time := rfl
@[simp] theorem clearAllCounts_rate (s : State) : (clearAllCounts s).rate = s.rate := rfl
@[simp] theorem clearAllCounts_eng (s : State) : (clearAllCounts s).eng = s.eng := rfl
@[simp] theorem clearAllCounts_pending (s : State) : (clearAllCounts s).pending = s.pending := rfl
@[simp] theorem setCondition_ctx (c : Condition) (p : Bool) (s : State) : (setCondition c p s).ctx = s.ctx := by unfold setCondition; split <;> rfl
@[simp] theorem setCondition_num (c : Condition) (p : Bool) (s : State) : (setCondition c p s).num = s.num := by unfold setCondition; split <;> rfl
@[simp] theorem setCondition_groups (c : Condition) (p : Bool) (s : State) : (setCondition c p s).groups = s.groups := by unfold setCondition; split <;> rfl
@[simp] theorem setCondition_sel (c : Condition) (p : Bool) (s : State) : (setCondition c p s).sel = s.sel := by unfold setCondition; split <;> rfl
@[simp] theorem setCondition_gap (c : Condition) (p : Bool) (s : State) : (setCondition c p s).gap = s.gap := by unfold setCondition; split <;> rfl
@[simp] theorem setCondition_time (c : Condition) (p : Bool) (s : State) : (setCondition c p s).time = s.time := by unfold setCondition; split <;> rfl
@[simp] theorem setCondition_rate (c : Condition) (p : Bool) (s : State) : (setCondition c p s).rate = s.rate := by unfold setCondition; split <;> rfl
@[simp] theorem setCondition_eng (c : Condition) (p : Bool) (s : State) : (setCondition c p s).eng = s.eng := by unfold setCondition; split <;> rfl
@[simp] theorem setCondition_pending (c : Condition) (p : Bool) (s : State) : (setCondition c p s).pending = s.pending := by unfold setCondition; split <;> rfl
@[simp] theorem recheck_ctx (c : Condition) (s : State) : (recheck c s).ctx = s.ctx := by simp [recheck]
@[simp] theorem recheck_num (c : Condition) (s : State) : (recheck c s).num = s.num := by simp [recheck]
@[simp] theorem recheck_groups (c : Condition) (s : State) : (recheck c s).groups = s.groups := by simp [recheck]
@[simp] theorem recheck_sel (c : Condition) (s : State) : (recheck c s).sel = s.sel := by simp [recheck]
@[simp] theorem recheck_gap (c : Condition) (s : State) : (recheck c s).gap = s.gap := by simp [recheck]
@[simp] theorem recheck_time (c : Condition) (s : State) : (recheck c s).time = s.time := by simp [recheck]
@[simp] theorem recheck_rate (c : Condition) (s : State) : (recheck c s).rate = s.rate := by simp [recheck]
@[simp] theorem recheck_eng (c : Condition) (s : State) : (recheck c s).eng = s.eng := by simp [recheck]
@[simp] theorem recheck_pending (c : Condition) (s : State) : (recheck c s).pending = s.pending := by simp [recheck]
@[simp] theorem callReport_num (i : Nat) (r : CallReport) (s : State) : (callReport i r s).num = s.num := by unfold callReport; (repeat' split) <;> rfl
@[simp] theorem callReport_groups (i : Nat) (r : CallReport) (s : State) : (callReport i r s).groups = s.groups := by unfold callReport; (repeat' split) <;> rfl
@[simp] theorem callReport_sel (i : Nat) (r : CallReport) (s : State) : (callReport i r s).sel = s.sel := by unfold callReport; (repeat' split) <;> rfl
@[simp] theorem callReport_gap (i : Nat) (r : CallReport) (s : State) : (callReport i r s).gap = s.gap := by unfold callReport; (repeat' split) <;> rfl
@[simp] theorem callReport_time (i : Nat) (r : CallReport) (s : State) : (callReport i r s).time = s.time := by unfold callReport; (repeat' split) <;> rfl
@[simp] theorem callReport_rate (i : Nat) (r : CallReport) (s : State) : (callReport i r s).rate = s.rate := by unfold callReport; (repeat' split) <;> rfl
@[simp] theorem callReport_eng (i : Nat) (r : CallReport) (s : State) : (callReport i r s).eng = s.eng := by unfold callReport; (repeat' split) <;> rfl
@[simp] theorem callReport_pending (i : Nat) (r : CallReport) (s : State) : (callReport i r s).pending = s.pending := by unfold callReport; (repeat' split) <;> rfl
@[simp] theorem raiseCounter_ctx (g : Nat) (n : CounterName) (s : State) : (raiseCounter g n s).ctx = s.ctx := by unfold raiseCounter; repeat' split <;> simp
@[simp] theorem raiseCounter_num (g : Nat) (n : CounterName) (s : State) : (raiseCounter g n s).num = s.num := by unfold raiseCounter; repeat' split <;> simp
@[simp] theorem raiseCounter_sel (g : Nat) (n : CounterName) (s : State) : (raiseCounter g n s).sel = s.sel := by unfold raiseCounter; repeat' split <;> simp
@[simp] theorem raiseCounter_gap (g : Nat) (n : CounterName) (s : State) : (raiseCounter g n s).gap = s.gap := by unfold raiseCounter; repeat' split <;> simp
@[simp] theorem raiseCounter_time (g : Nat) (n : CounterName) (s : State) : (raiseCounter g n s).time = s.time := by unfold raiseCounter; repeat' split <;> simp
@[simp] theorem raiseCounter_rate (g : Nat) (n : CounterName) (s : State) : (raiseCounter g n s).rate = s.rate := by unfold raiseCounter; repeat' split <;> simp
@[simp] theorem raiseCounter_eng (g : Nat) (n : CounterName) (s : State) : (raiseCounter g n s).eng = s.eng := by unfold raiseCounter; repeat' split <;> simp
@[simp] theorem raiseCounter_pending (g : Nat) (n : CounterName) (s : State) : (raiseCounter g n s).pending = s.pending := by unfold raiseCounter; repeat' split <;> simp
@[simp] theorem putEntry_link (k : BankId) (i : Nat) (e : NumberEntry) (s : State) : (putEntry k i e s).link = s.link := rfl
@[simp] theorem putEntry_ctx (k : BankId) (i : Nat) (e : NumberEntry) (s : State) : (putEntry k i e s).ctx = s.ctx := rfl
@[simp] theorem putEntry_groups (k : BankId) (i : Nat) (e : NumberEntry) (s : State) : (putEntry k i e s).groups = s.groups := rfl
@[simp] theorem putEntry_sel (k : BankId) (i : Nat) (e : NumberEntry) (s : State) : (putEntry k i e s).sel = s.sel := rfl
@[simp] theorem putEntry_gap (k : BankId) (i : Nat) (e : NumberEntry) (s : State) : (putEntry k i e s).gap = s.gap := rfl
@[simp] theorem putEntry_time (k : BankId) (i : Nat) (e : NumberEntry) (s : State) : (putEntry k i e s).time = s.time := rfl
@[simp] theorem putEntry_rate (k : BankId) (i : Nat) (e : NumberEntry) (s : State) : (putEntry k i e s).rate = s.rate := rfl
@[simp] theorem putEntry_eng (k : BankId) (i : Nat) (e : NumberEntry) (s : State) : (putEntry k i e s).eng = s.eng := rfl
@[simp] theorem putEntry_pending (k : BankId) (i : Nat) (e : NumberEntry) (s : State) : (putEntry k i e s).pending = s.pending := rfl
@[simp] theorem gapChange_ctx (k : GapChangeKind) (i : Nat) (e : GapEntry) (s : State) : (gapChange k i e s).ctx = s.ctx := rfl
@[simp] theorem gapChange_num (k : GapChangeKind) (i : Nat) (e : GapEntry) (s : State) : (gapChange k i e s).num = s.num := rfl
@[simp] theorem gapChange_groups (k : GapChangeKind) (i : Nat) (e : GapEntry) (s : State) : (gapChange k i e s).groups = s.groups := rfl
@[simp] theorem gapChange_sel (k : GapChangeKind) (i : Nat) (e : GapEntry) (s : State) : (gapChange k i e s).sel = s.sel := rfl
@[simp] theorem gapChange_gap (k : GapChangeKind) (i : Nat) (e : GapEntry) (s : State) : (gapChange k i e s).gap = s.gap := rfl
@[simp] theorem gapChange_time (k : GapChangeKind) (i : Nat) (e : GapEntry) (s : State) : (gapChange k i e s).time = s.time := rfl
@[simp] theorem gapChange_rate (k : GapChangeKind) (i : Nat) (e : GapEntry) (s : State) : (gapChange k i e s).rate = s.rate := rfl
@[simp] theorem gapChange_eng (k : GapChangeKind) (i : Nat) (e : GapEntry) (s : State) : (gapChange k i e s).eng = s.eng := rfl
@[simp] theorem gapChange_pending (k : GapChangeKind) (i : Nat) (e : GapEntry) (s : State) : (gapChange k i e s).pending = s.pending := rfl
@[simp] theorem createAutoGap_ctx (d : List Nat) (n l : Nat) (s : State) : (createAutoGap d n l s).ctx = s.ctx := by unfold createAutoGap; (repeat' (first | split | dsimp only)) <;> simp
@[simp] theorem createAutoGap_num (d : List Nat) (n l : Nat) (s : State) : (createAutoGap d n l s).num = s.num := by unfold createAutoGap; (repeat' (first | split | dsimp only)) <;> simp
@[simp] theorem createAutoGap_groups (d : List Nat) (n l : Nat) (s : State) : (createAutoGap d n l s).groups = s.groups := by unfold createAutoGap; (repeat' (first | split | dsimp only)) <;> simp
@[simp] theorem createAutoGap_sel (d : List Nat) (n l : Nat) (s : State) : (createAutoGap d n l s).sel = s.sel := by unfold createAutoGap; (repeat' (first | split | dsimp only)) <;> simp
@[simp] theorem createAutoGap_time (d : List Nat) (n l : Nat) (s : State) : (createAutoGap d n l s).time = s.time := by unfold createAutoGap; (repeat' (first | split | dsimp only)) <;> simp
@[simp] theorem createAutoGap_rate (d : List Nat) (n l : Nat) (s : State) : (createAutoGap d n l s).rate = s.rate := by unfold createAutoGap; (repeat' (first | split | dsimp only)) <;> simp
@[simp] theorem createAutoGap_eng (d : List Nat) (n l : Nat) (s : State) : (createAutoGap d n l s).eng = s.eng := by unfold createAutoGap; (repeat' (first | split | dsimp only)) <;> simp
@[simp] theorem createAutoGap_pending (d : List Nat) (n l : Nat) (s : State) : (createAutoGap d n l s).pending = s.pending := by unfold createAutoGap; (repeat' (first | split | dsimp only)) <;> simp
@[simp] theorem automaticGap_ctx (d : List Nat) (n l : Nat) (s : State) : (automaticGap d n l s).ctx = s.ctx := by unfold automaticGap; (repeat' (first | split | dsimp only)) <;> simp
@[simp] theorem automaticGap_num (d : List Nat) (n l : Nat) (s : State) : (automaticGap d n l s).num = s.num := by unfold automaticGap; (repeat' (first | split | dsimp only)) <;> simp
@[simp] theorem automaticGap_groups (d : List Nat) (n l : Nat) (s : State) : (automaticGap d n l s).groups = s.groups := by unfold automaticGap; (repeat' (first | split | dsimp only)) <;> simp
@[simp] theorem automaticGap_sel (d : List Nat) (n l : Nat) (s : State) : (automaticGap d n l s).sel = s.sel := by unfold automaticGap; (repeat' (first | split | dsimp only)) <;> simp
@[simp] theorem automaticGap_time (d : List Nat) (n l : Nat) (s : State) : (automaticGap d n l s).time = s.time := by unfold automaticGap; (repeat' (first | split | dsimp only)) <;> simp
@[simp] theorem automaticGap_rate (d : List Nat) (n l : Nat) (s : State) : (automaticGap d n l s).rate = s.rate := by unfold automaticGap; (repeat' (first | split | dsimp only)) <;> simp
@[simp] theorem automaticGap_eng (d : List Nat) (n l : Nat) (s : State) : (automaticGap d n l s).eng = s.eng := by unfold automaticGap; (repeat' (first | split | dsimp only)) <;> simp
@[simp] theorem automaticGap_pending (d : List Nat) (n l : Nat) (s : State) : (automaticGap d n l s).pending = s.pending := by unfold automaticGap; (repeat' (first | split | dsimp only)) <;> simp
@[simp] theorem offerDestination_ctx (m : Option (BankId × Nat)) (s : State) : (offerDestination m s).ctx = s.ctx := by unfold offerDestination; (repeat' (first | split | dsimp only)) <;> simp
@[simp] theorem offerDestination_groups (m : Option (BankId × Nat)) (s : State) : (offerDestination m s).groups = s.groups := by unfold offerDestination; (repeat' (first | split | dsimp only)) <;> simp
@[simp] theorem offerDestination_sel (m : Option (BankId × Nat)) (s : State) : (offerDestination m s).sel = s.sel := by unfold offerDestination; (repeat' (first | split | dsimp only)) <;> simp
@[simp] theorem offerDestination_time (m : Option (BankId × Nat)) (s : State) : (offerDestination m s).time = s.time := by unfold offerDestination; (repeat' (first | split | dsimp only)) <;> simp
@[simp] theorem offerDestination_rate (m : Option (BankId × Nat)) (s : State) : (offerDestination m s).rate = s.rate := by unfold offerDestination; (repeat' (first | split | dsimp only)) <;> simp
@[simp] theorem offerDestination_eng (m : Option (BankId × Nat)) (s : State) : (offerDestination m s).eng = s.eng := by unfold offerDestination; (repeat' (first | split | dsimp only)) <;> simp
@[simp] theorem offerDestination_pending (m : Option (BankId × Nat)) (s : State) : (offerDestination m s).pending = s.pending := by unfold offerDestination; (repeat' (first | split | dsimp only)) <;> simp
@[simp] theorem releaseCircuit_ctx (g c : Nat) (f : Bool) (x : Nat) (s : State) : (releaseCircuit g c f x s).ctx = s.ctx := by unfold releaseCircuit; (repeat' (first | split | dsimp only)) <;> simp
@[simp] theorem releaseCircuit_num (g c : Nat) (f : Bool) (x : Nat) (s : State) : (releaseCircuit g c f x s).num = s.num := by unfold releaseCircuit; (repeat' (first | split | dsimp only)) <;> simp
@[simp] theorem releaseCircuit_sel (g c : Nat) (f : Bool) (x : Nat) (s : State) : (releaseCircuit g c f x s).sel = s.sel := by unfold releaseCircuit; (repeat' (first | split | dsimp only)) <;> simp
@[simp] theorem releaseCircuit_gap (g c : Nat) (f : Bool) (x : Nat) (s : State) : (releaseCircuit g c f x s).gap = s.gap := by unfold releaseCircuit; (repeat' (first | split | dsimp only)) <;> simp
@[simp] theorem releaseCircuit_time (g c : Nat) (f : Bool) (x : Nat) (s : State) : (releaseCircuit g c f x s).time = s.time := by unfold releaseCircuit; (repeat' (first | split | dsimp only)) <;> simp
@[simp] theorem releaseCircuit_rate (g c : Nat) (f : Bool) (x : Nat) (s : State) : (releaseCircuit g c f x s).rate = s.rate := by unfold releaseCircuit; (repeat' (first | split | dsimp only)) <;> simp
@[simp] theorem releaseCircuit_eng (g c : Nat) (f : Bool) (x : Nat) (s : State) : (releaseCircuit g c f x s).eng = s.eng := by unfold releaseCircuit; (repeat' (first | split | dsimp only)) <;> simp
@[simp] theorem releaseCircuit_pending (g c : Nat) (f : Bool) (x : Nat) (s : State) : (releaseCircuit g c f x s).pending = s.pending := by unfold releaseCircuit; (repeat' (first | split | dsimp only)) <;> simp
@[simp] theorem hunt_ctx (g x : Nat) (s : State) : ((hunt g x s).1).ctx = s.ctx := by unfold hunt; (repeat' (first | split | dsimp only)) <;> simp
@[simp] theorem hunt_num (g x : Nat) (s : State) : ((hunt g x s).1).num = s.num := by unfold hunt; (repeat' (first | split | dsimp only)) <;> simp
@[simp] theorem hunt_sel (g x : Nat) (s : State) : ((hunt g x s).1).sel = s.sel := by unfold hunt; (repeat' (first | split | dsimp only)) <;> simp
@[simp] theorem hunt_gap (g x : Nat) (s : State) : ((hunt g x s).1).gap = s.gap := by unfold hunt; (repeat' (first | split | dsimp only)) <;> simp
@[simp] theorem hunt_time (g x : Nat) (s : State) : ((hunt g x s).1).time = s.time := by unfold hunt; (repeat' (first | split | dsimp only)) <;> simp
@[simp] theorem hunt_rate (g x : Nat) (s : State) : ((hunt g x s).1).rate = s.rate := by unfold hunt; (repeat' (first | split | dsimp only)) <;> simp
@[simp] theorem hunt_eng (g x : Nat) (s : State) : ((hunt g x s).1).eng = s.eng := by unfold hunt; (repeat' (first | split | dsimp only)) <;> simp
@[simp] theorem hunt_pending (g x : Nat) (s : State) : ((hunt g x s).1).pending = s.pending := by unfold hunt; (repeat' (first | split | dsimp only)) <;> simp
@[simp] theorem grantMark_ctx (g c x : Nat) (s : State) : (grantMark g c x s).ctx = s.ctx := by unfold grantMark; (repeat' (first | split | dsimp only)) <;> simp
@[simp] theorem grantMark_num (g c x : Nat) (s : State) : (grantMark g c x s).num = s.num := by unfold grantMark; (repeat' (first | split | dsimp only)) <;> simp
@[simp] theorem grantMark_sel (g c x : Nat) (s : State) : (grantMark g c x s).sel = s.sel := by unfold grantMark; (repeat' (first | split | dsimp only)) <;> simp
@[simp] theorem grantMark_gap (g c x : Nat) (s : State) : (grantMark g c x s).gap = s.gap := by unfold grantMark; (repeat' (first | split | dsimp only)) <;> simp
@[simp] theorem grantMark_time (g c x : Nat) (s : State) : (grantMark g c x s).time = s.time := by unfold grantMark; (repeat' (first | split | dsimp only)) <;> simp
@[simp] theorem grantMark_rate (g c x : Nat) (s : State) : (grantMark g c x s).rate = s.rate := by unfold grantMark; (repeat' (first | split | dsimp only)) <;> simp
@[simp] theorem grantMark_eng (g c x : Nat) (s : State) : (grantMark g c x s).eng = s.eng := by unfold grantMark; (repeat' (first | split | dsimp only)) <;> simp
@[simp] theorem grantMark_pending (g c x : Nat) (s : State) : (grantMark g c x s).pending = s.pending := by unfold grantMark; (repeat' (first | split | dsimp only)) <;> simp
@[simp] theorem grantGlare_ctx (g c x t : Nat) (p : Bool) (s : State) : (grantGlare g c x t p s).ctx = s.ctx := by unfold grantGlare; (repeat' (first | split | dsimp only)) <;> simp
@[simp] theorem grantGlare_num (g c x t : Nat) (p : Bool) (s : State) : (grantGlare g c x t p s).num = s.num := by unfold grantGlare; (repeat' (first | split | dsimp only)) <;> simp
@[simp] theorem grantGlare_sel (g c x t : Nat) (p : Bool) (s : State) : (grantGlare g c x t p s).sel = s.sel := by unfold grantGlare; (repeat' (first | split | dsimp only)) <;> simp
@[simp] theorem grantGlare_gap (g c x t : Nat) (p : Bool) (s : State) : (grantGlare g c x t p s).gap = s.gap := by unfold grantGlare; (repeat' (first | split | dsimp only)) <;> simp
@[simp] theorem grantGlare_time (g c x t : Nat) (p : Bool) (s : State) : (grantGlare g c x t p s).time = s.time := by unfold grantGlare; (repeat' (first | split | dsimp only)) <;> simp
@[simp] theorem grantGlare_rate (g c x t : Nat) (p : Bool) (s : State) : (grantGlare g c x t p s).rate = s.rate := by unfold grantGlare; (repeat' (first | split | dsimp only)) <;> simp
@[simp] theorem grantGlare_eng (g c x t : Nat) (p : Bool) (s : State) : (grantGlare g c x t p s).eng = s.eng := by unfold grantGlare; (repeat' (first | split | dsimp only)) <;> simp
@[simp] theorem grantGlare_pending (g c x t : Nat) (p : Bool) (s : State) : (grantGlare g c x t p s).pending = s.pending := by unfold grantGlare; (repeat' (first | split | dsimp only)) <;> simp
@[simp] theorem markCollision_ctx (g c x h t : Nat) (p : Bool) (q : Parity) (s : State) : ((markCollision g c x h t p q s).1).ctx = s.ctx := by unfold markCollision; (repeat' (first | split | dsimp only)) <;> simp
@[simp] theorem markCollision_num (g c x h t : Nat) (p : Bool) (q : Parity) (s : State) : ((markCollision g c x h t p q s).1).num = s.num := by unfold markCollision; (repeat' (first | split | dsimp only)) <;> simp
@[simp] theorem markCollision_sel (g c x h t : Nat) (p : Bool) (q : Parity) (s : State) : ((markCollision g c x h t p q s).1).sel = s.sel := by unfold markCollision; (repeat' (first | split | dsimp only)) <;> simp
@[simp] theorem markCollision_gap (g c x h t : Nat) (p : Bool) (q : Parity) (s : State) : ((markCollision g c x h t p q s).1).gap = s.gap := by unfold markCollision; (repeat' (first | split | dsimp only)) <;> simp
@[simp] theorem markCollision_time (g c x h t : Nat) (p : Bool) (q : Parity) (s : State) : ((markCollision g c x h t p q s).1).time = s.time := by unfold markCollision; (repeat' (first | split | dsimp only)) <;> simp
@[simp] theorem markCollision_rate (g c x h t : Nat) (p : Bool) (q : Parity) (s : State) : ((markCollision g c x h t p q s).1).rate = s.rate := by unfold markCollision; (repeat' (first | split | dsimp only)) <;> simp
@[simp] theorem markCollision_eng (g c x h t : Nat) (p : Bool) (q : Parity) (s : State) : ((markCollision g c x h t p q s).1).eng = s.eng := by unfold markCollision; (repeat' (first | split | dsimp only)) <;> simp
@[simp] theorem markCollision_pending (g c x h t : Nat) (p : Bool) (q : Parity) (s : State) : ((markCollision g c x h t p q s).1).pending = s.pending := by unfold markCollision; (repeat' (first | split | dsimp only)) <;> simp
@[simp] theorem markIncoming_ctx (g c x : Nat) (s : State) : ((markIncoming g c x s).1).ctx = s.ctx := by unfold markIncoming; (repeat' (first | split | dsimp only)) <;> simp
@[simp] theorem markIncoming_num (g c x : Nat) (s : State) : ((markIncoming g c x s).1).num = s.num := by unfold markIncoming; (repeat' (first | split | dsimp only)) <;> simp
@[simp] theorem markIncoming_sel (g c x : Nat) (s : State) : ((markIncoming g c x s).1).sel = s.sel := by unfold markIncoming; (repeat' (first | split | dsimp only)) <;> simp
@[simp] theorem markIncoming_gap (g c x : Nat) (s : State) : ((markIncoming g c x s).1).gap = s.gap := by unfold markIncoming; (repeat' (first | split | dsimp only)) <;> simp
@[simp] theorem markIncoming_time (g c x : Nat) (s : State) : ((markIncoming g c x s).1).time = s.time := by unfold markIncoming; (repeat' (first | split | dsimp only)) <;> simp
@[simp] theorem markIncoming_rate (g c x : Nat) (s : State) : ((markIncoming g c x s).1).rate = s.rate := by unfold markIncoming; (repeat' (first | split | dsimp only)) <;> simp
@[simp] theorem markIncoming_eng (g c x : Nat) (s : State) : ((markIncoming g c x s).1).eng = s.eng := by unfold markIncoming; (repeat' (first | split | dsimp only)) <;> simp
@[simp] theorem markIncoming_pending (g c x : Nat) (s : State) : ((markIncoming g c x s).1).pending = s.pending := by unfold markIncoming; (repeat' (first | split | dsimp only)) <;> simp
@[simp] theorem setEngine_ctx (a : EngineState) (b : HoldReason) (s : State) : (setEngine a b s).ctx = s.ctx := by unfold setEngine; (repeat' (first | split | dsimp only)) <;> simp
@[simp] theorem setEngine_num (a : EngineState) (b : HoldReason) (s : State) : (setEngine a b s).num = s.num := by unfold setEngine; (repeat' (first | split | dsimp only)) <;> simp
@[simp] theorem setEngine_groups (a : EngineState) (b : HoldReason) (s : State) : (setEngine a b s).groups = s.groups := by unfold setEngine; (repeat' (first | split | dsimp only)) <;> simp
@[simp] theorem setEngine_sel (a : EngineState) (b : HoldReason) (s : State) : (setEngine a b s).sel = s.sel := by unfold setEngine; (repeat' (first | split | dsimp only)) <;> simp
@[simp] theorem setEngine_gap (a : EngineState) (b : HoldReason) (s : State) : (setEngine a b s).gap = s.gap := by unfold setEngine; (repeat' (first | split | dsimp only)) <;> simp
@[simp] theorem setEngine_time (a : EngineState) (b : HoldReason) (s : State) : (setEngine a b s).time = s.time := by unfold setEngine; (repeat' (first | split | dsimp only)) <;> simp
@[simp] theorem setEngine_rate (a : EngineState) (b : HoldReason) (s : State) : (setEngine a b s).rate = s.rate := by unfold setEngine; (repeat' (first | split | dsimp only)) <;> simp
@[simp] theorem setEngine_pending (a : EngineState) (b : HoldReason) (s : State) : (setEngine a b s).pending = s.pending := by unfold setEngine; (repeat' (first | split | dsimp only)) <;> simp
@[simp] theorem engineCheck_ctx (s : State) : (engineCheck s).ctx = s.ctx := by unfold engineCheck; (repeat' (first | split | dsimp only)) <;> simp
@[simp] theorem engineCheck_num (s : State) : (engineCheck s).num = s.num := by unfold engineCheck; (repeat' (first | split | dsimp only)) <;> simp
@[simp] theorem engineCheck_groups (s : State) : (engineCheck s).groups = s.groups := by unfold engineCheck; (repeat' (first | split | dsimp only)) <;> simp
@[simp] theorem engineCheck_sel (s : State) : (engineCheck s).sel = s.sel := by unfold engineCheck; (repeat' (first | split | dsimp only)) <;> simp
@[simp] theorem engineCheck_gap (s : State) : (engineCheck s).gap = s.gap := by unfold engineCheck; (repeat' (first | split | dsimp only)) <;> simp
@[simp] theorem engineCheck_time (s : State) : (engineCheck s).time = s.time := by unfold engineCheck; (repeat' (first | split | dsimp only)) <;> simp
@[simp] theorem engineCheck_rate (s : State) : (engineCheck s).rate = s.rate := by unfold engineCheck; (repeat' (first | split | dsimp only)) <;> simp
@[simp] theorem engineCheck_pending (s : State) : (engineCheck s).pending = s.pending := by unfold engineCheck; (repeat' (first | split | dsimp only)) <;> simp
@[simp] theorem escalate_ctx (s : State) : (escalate s).ctx = s.ctx := by unfold escalate; (repeat' (first | split | dsimp only)) <;> simp
@[simp] theorem escalate_num (s : State) : (escalate s).num = s.num := by unfold escalate; (repeat' (first | split | dsimp only)) <;> simp
@[simp] theorem escalate_groups (s : State) : (escalate s).groups = s.groups := by unfold escalate; (repeat' (first | split | dsimp only)) <;> simp
@[simp] theorem escalate_sel (s : State) : (escalate s).sel = s.sel := by unfold escalate; (repeat' (first | split | dsimp only)) <;> simp
@[simp] theorem escalate_gap (s : State) : (escalate s).gap = s.gap := by unfold escalate; (repeat' (first | split | dsimp only)) <;> simp
@[simp] theorem escalate_time (s : State) : (escalate s).time = s.time := by unfold escalate; (repeat' (first | split | dsimp only)) <;> simp
@[simp] theorem escalate_rate (s : State) : (escalate s).rate = s.rate := by unfold escalate; (repeat' (first | split | dsimp only)) <;> simp
@[simp] theorem escalate_pending (s : State) : (escalate s).pending = s.pending := by unfold escalate; (repeat' (first | split | dsimp only)) <;> simp
@[simp] theorem handFault_ctx (f : TableFault) (s : State) : (handFault f s).ctx = s.ctx := by unfold handFault; (repeat' (first | split | dsimp only)) <;> simp
@[simp] theorem handFault_num (f : TableFault) (s : State) : (handFault f s).num = s.num := by unfold handFault; (repeat' (first | split | dsimp only)) <;> simp
@[simp] theorem handFault_groups (f : TableFault) (s : State) : (handFault f s).groups = s.groups := by unfold handFault; (repeat' (first | split | dsimp only)) <;> simp
@[simp] theorem handFault_sel (f : TableFault) (s : State) : (handFault f s).sel = s.sel := by unfold handFault; (repeat' (first | split | dsimp only)) <;> simp
@[simp] theorem handFault_gap (f : TableFault) (s : State) : (handFault f s).gap = s.gap := by unfold handFault; (repeat' (first | split | dsimp only)) <;> simp
@[simp] theorem handFault_time (f : TableFault) (s : State) : (handFault f s).time = s.time := by unfold handFault; (repeat' (first | split | dsimp only)) <;> simp
@[simp] theorem handFault_rate (f : TableFault) (s : State) : (handFault f s).rate = s.rate := by unfold handFault; (repeat' (first | split | dsimp only)) <;> simp
@[simp] theorem handFault_pending (f : TableFault) (s : State) : (handFault f s).pending = s.pending := by unfold handFault; (repeat' (first | split | dsimp only)) <;> simp
@[simp] theorem countBid_ctx (c : Candidate) (s : State) : (countBid c s).ctx = s.ctx := by unfold countBid; (repeat' (first | split | dsimp only)) <;> simp
@[simp] theorem countBid_num (c : Candidate) (s : State) : (countBid c s).num = s.num := by unfold countBid; (repeat' (first | split | dsimp only)) <;> simp
@[simp] theorem countBid_sel (c : Candidate) (s : State) : (countBid c s).sel = s.sel := by unfold countBid; (repeat' (first | split | dsimp only)) <;> simp
@[simp] theorem countBid_gap (c : Candidate) (s : State) : (countBid c s).gap = s.gap := by unfold countBid; (repeat' (first | split | dsimp only)) <;> simp
@[simp] theorem countBid_time (c : Candidate) (s : State) : (countBid c s).time = s.time := by unfold countBid; (repeat' (first | split | dsimp only)) <;> simp
@[simp] theorem countBid_rate (c : Candidate) (s : State) : (countBid c s).rate = s.rate := by unfold countBid; (repeat' (first | split | dsimp only)) <;> simp
@[simp] theorem countBid_eng (c : Candidate) (s : State) : (countBid c s).eng = s.eng := by unfold countBid; (repeat' (first | split | dsimp only)) <;> simp
@[simp] theorem countBid_pending (c : Candidate) (s : State) : (countBid c s).pending = s.pending := by unfold countBid; (repeat' (first | split | dsimp only)) <;> simp
@[simp] theorem countBids_ctx (l : List Candidate) (s : State) : (countBids l s).ctx = s.ctx := by
  unfold countBids
  induction l generalizing s with
  | nil => rfl
  | cons a t ih => rw [List.foldl_cons, ih]; simp
@[simp] theorem countBids_num (l : List Candidate) (s : State) : (countBids l s).num = s.num := by
  unfold countBids
  induction l generalizing s with
  | nil => rfl
  | cons a t ih => rw [List.foldl_cons, ih]; simp
@[simp] theorem countBids_sel (l : List Candidate) (s : State) : (countBids l s).sel = s.sel := by
  unfold countBids
  induction l generalizing s with
  | nil => rfl
  | cons a t ih => rw [List.foldl_cons, ih]; simp
@[simp] theorem countBids_gap (l : List Candidate) (s : State) : (countBids l s).gap = s.gap := by
  unfold countBids
  induction l generalizing s with
  | nil => rfl
  | cons a t ih => rw [List.foldl_cons, ih]; simp
@[simp] theorem countBids_time (l : List Candidate) (s : State) : (countBids l s).time = s.time := by
  unfold countBids
  induction l generalizing s with
  | nil => rfl
  | cons a t ih => rw [List.foldl_cons, ih]; simp
@[simp] theorem countBids_rate (l : List Candidate) (s : State) : (countBids l s).rate = s.rate := by
  unfold countBids
  induction l generalizing s with
  | nil => rfl
  | cons a t ih => rw [List.foldl_cons, ih]; simp
@[simp] theorem countBids_eng (l : List Candidate) (s : State) : (countBids l s).eng = s.eng := by
  unfold countBids
  induction l generalizing s with
  | nil => rfl
  | cons a t ih => rw [List.foldl_cons, ih]; simp
@[simp] theorem countBids_pending (l : List Candidate) (s : State) : (countBids l s).pending = s.pending := by
  unfold countBids
  induction l generalizing s with
  | nil => rfl
  | cons a t ih => rw [List.foldl_cons, ih]; simp
@[simp] theorem seizeFor_num (i : Nat) (c : Context) (g p : Nat) (s : State) : ((seizeFor i c g p s).1).num = s.num := by
  have h := hunt_num g (refOf s i) s
  unfold seizeFor; split <;> rename_i e <;> rw [e] at h <;> simpa using h
@[simp] theorem seizeFor_sel (i : Nat) (c : Context) (g p : Nat) (s : State) : ((seizeFor i c g p s).1).sel = s.sel := by
  have h := hunt_sel g (refOf s i) s
  unfold seizeFor; split <;> rename_i e <;> rw [e] at h <;> simpa using h
@[simp] theorem seizeFor_gap (i : Nat) (c : Context) (g p : Nat) (s : State) : ((seizeFor i c g p s).1).gap = s.gap := by
  have h := hunt_gap g (refOf s i) s
  unfold seizeFor; split <;> rename_i e <;> rw [e] at h <;> simpa using h
@[simp] theorem seizeFor_time (i : Nat) (c : Context) (g p : Nat) (s : State) : ((seizeFor i c g p s).1).time = s.time := by
  have h := hunt_time g (refOf s i) s
  unfold seizeFor; split <;> rename_i e <;> rw [e] at h <;> simpa using h
@[simp] theorem seizeFor_rate (i : Nat) (c : Context) (g p : Nat) (s : State) : ((seizeFor i c g p s).1).rate = s.rate := by
  have h := hunt_rate g (refOf s i) s
  unfold seizeFor; split <;> rename_i e <;> rw [e] at h <;> simpa using h
@[simp] theorem seizeFor_eng (i : Nat) (c : Context) (g p : Nat) (s : State) : ((seizeFor i c g p s).1).eng = s.eng := by
  have h := hunt_eng g (refOf s i) s
  unfold seizeFor; split <;> rename_i e <;> rw [e] at h <;> simpa using h
@[simp] theorem seizeFor_pending (i : Nat) (c : Context) (g p : Nat) (s : State) : ((seizeFor i c g p s).1).pending = s.pending := by
  have h := hunt_pending g (refOf s i) s
  unfold seizeFor; split <;> rename_i e <;> rw [e] at h <;> simpa using h
@[simp] theorem runSelection_num (i : Nat) (c : Context) (s : State) : ((runSelection i c s).1).num = s.num := by unfold runSelection; (repeat' (first | split | dsimp only)) <;> simp
@[simp] theorem runSelection_sel (i : Nat) (c : Context) (s : State) : ((runSelection i c s).1).sel = s.sel := by unfold runSelection; (repeat' (first | split | dsimp only)) <;> simp
@[simp] theorem runSelection_gap (i : Nat) (c : Context) (s : State) : ((runSelection i c s).1).gap = s.gap := by unfold runSelection; (repeat' (first | split | dsimp only)) <;> simp
@[simp] theorem runSelection_time (i : Nat) (c : Context) (s : State) : ((runSelection i c s).1).time = s.time := by unfold runSelection; (repeat' (first | split | dsimp only)) <;> simp
@[simp] theorem runSelection_rate (i : Nat) (c : Context) (s : State) : ((runSelection i c s).1).rate = s.rate := by unfold runSelection; (repeat' (first | split | dsimp only)) <;> simp
@[simp] theorem runSelection_pending (i : Nat) (c : Context) (s : State) : ((runSelection i c s).1).pending = s.pending := by unfold runSelection; (repeat' (first | split | dsimp only)) <;> simp
@[simp] theorem requestSelection_num (i : Nat) (s : State) : ((requestSelection i s).1).num = s.num := by unfold requestSelection; (repeat' (first | split | dsimp only)) <;> simp
@[simp] theorem requestSelection_sel (i : Nat) (s : State) : ((requestSelection i s).1).sel = s.sel := by unfold requestSelection; (repeat' (first | split | dsimp only)) <;> simp
@[simp] theorem requestSelection_gap (i : Nat) (s : State) : ((requestSelection i s).1).gap = s.gap := by unfold requestSelection; (repeat' (first | split | dsimp only)) <;> simp
@[simp] theorem requestSelection_time (i : Nat) (s : State) : ((requestSelection i s).1).time = s.time := by unfold requestSelection; (repeat' (first | split | dsimp only)) <;> simp
@[simp] theorem requestSelection_rate (i : Nat) (s : State) : ((requestSelection i s).1).rate = s.rate := by unfold requestSelection; (repeat' (first | split | dsimp only)) <;> simp
@[simp] theorem requestSelection_pending (i : Nat) (s : State) : ((requestSelection i s).1).pending = s.pending := by unfold requestSelection; (repeat' (first | split | dsimp only)) <;> simp
@[simp] theorem enterRecord_ctx (r : RecordBody) (s : State) : (enterRecord r s).ctx = s.ctx := by simp [enterRecord]
@[simp] theorem enterRecord_num (r : RecordBody) (s : State) : (enterRecord r s).num = s.num := by simp [enterRecord]
@[simp] theorem enterRecord_groups (r : RecordBody) (s : State) : (enterRecord r s).groups = s.groups := by simp [enterRecord]
@[simp] theorem enterRecord_sel (r : RecordBody) (s : State) : (enterRecord r s).sel = s.sel := by simp [enterRecord]
@[simp] theorem enterRecord_gap (r : RecordBody) (s : State) : (enterRecord r s).gap = s.gap := by simp [enterRecord]
@[simp] theorem enterRecord_time (r : RecordBody) (s : State) : (enterRecord r s).time = s.time := by simp [enterRecord]
@[simp] theorem enterRecord_eng (r : RecordBody) (s : State) : (enterRecord r s).eng = s.eng := by simp [enterRecord]
@[simp] theorem enterRecord_pending (r : RecordBody) (s : State) : (enterRecord r s).pending = s.pending := by simp [enterRecord]
@[simp] theorem joinFree_num (i : Nat) (s : State) : (joinFree i s).num = s.num := by unfold joinFree; (repeat' (first | split | dsimp only)) <;> simp
@[simp] theorem joinFree_groups (i : Nat) (s : State) : (joinFree i s).groups = s.groups := by unfold joinFree; (repeat' (first | split | dsimp only)) <;> simp
@[simp] theorem joinFree_sel (i : Nat) (s : State) : (joinFree i s).sel = s.sel := by unfold joinFree; (repeat' (first | split | dsimp only)) <;> simp
@[simp] theorem joinFree_gap (i : Nat) (s : State) : (joinFree i s).gap = s.gap := by unfold joinFree; (repeat' (first | split | dsimp only)) <;> simp
@[simp] theorem joinFree_time (i : Nat) (s : State) : (joinFree i s).time = s.time := by unfold joinFree; (repeat' (first | split | dsimp only)) <;> simp
@[simp] theorem joinFree_rate (i : Nat) (s : State) : (joinFree i s).rate = s.rate := by unfold joinFree; (repeat' (first | split | dsimp only)) <;> simp
@[simp] theorem joinFree_eng (i : Nat) (s : State) : (joinFree i s).eng = s.eng := by unfold joinFree; (repeat' (first | split | dsimp only)) <;> simp
@[simp] theorem joinFree_pending (i : Nat) (s : State) : (joinFree i s).pending = s.pending := by unfold joinFree; (repeat' (first | split | dsimp only)) <;> simp
@[simp] theorem releaseCircuits_ctx (i : Nat) (c : Context) (s : State) : (releaseCircuits i c s).ctx = s.ctx := by unfold releaseCircuits; (repeat' (first | split | dsimp only)) <;> simp
@[simp] theorem releaseCircuits_num (i : Nat) (c : Context) (s : State) : (releaseCircuits i c s).num = s.num := by unfold releaseCircuits; (repeat' (first | split | dsimp only)) <;> simp
@[simp] theorem releaseCircuits_sel (i : Nat) (c : Context) (s : State) : (releaseCircuits i c s).sel = s.sel := by unfold releaseCircuits; (repeat' (first | split | dsimp only)) <;> simp
@[simp] theorem releaseCircuits_gap (i : Nat) (c : Context) (s : State) : (releaseCircuits i c s).gap = s.gap := by unfold releaseCircuits; (repeat' (first | split | dsimp only)) <;> simp
@[simp] theorem releaseCircuits_time (i : Nat) (c : Context) (s : State) : (releaseCircuits i c s).time = s.time := by unfold releaseCircuits; (repeat' (first | split | dsimp only)) <;> simp
@[simp] theorem releaseCircuits_rate (i : Nat) (c : Context) (s : State) : (releaseCircuits i c s).rate = s.rate := by unfold releaseCircuits; (repeat' (first | split | dsimp only)) <;> simp
@[simp] theorem releaseCircuits_eng (i : Nat) (c : Context) (s : State) : (releaseCircuits i c s).eng = s.eng := by unfold releaseCircuits; (repeat' (first | split | dsimp only)) <;> simp
@[simp] theorem releaseCircuits_pending (i : Nat) (c : Context) (s : State) : (releaseCircuits i c s).pending = s.pending := by unfold releaseCircuits; (repeat' (first | split | dsimp only)) <;> simp
@[simp] theorem dropContext_num (i : Nat) (s : State) : (dropContext i s).num = s.num := by simp [dropContext]
@[simp] theorem dropContext_groups (i : Nat) (s : State) : (dropContext i s).groups = s.groups := by simp [dropContext]
@[simp] theorem dropContext_sel (i : Nat) (s : State) : (dropContext i s).sel = s.sel := by simp [dropContext]
@[simp] theorem dropContext_gap (i : Nat) (s : State) : (dropContext i s).gap = s.gap := by simp [dropContext]
@[simp] theorem dropContext_time (i : Nat) (s : State) : (dropContext i s).time = s.time := by simp [dropContext]
@[simp] theorem dropContext_rate (i : Nat) (s : State) : (dropContext i s).rate = s.rate := by simp [dropContext]
@[simp] theorem dropContext_pending (i : Nat) (s : State) : (dropContext i s).pending = s.pending := by simp [dropContext]
@[simp] theorem freeContext_num (i : Nat) (x : Option Cause) (s : State) : (freeContext i x s).num = s.num := by unfold freeContext; (repeat' (first | split | dsimp only)) <;> simp
@[simp] theorem freeContext_sel (i : Nat) (x : Option Cause) (s : State) : (freeContext i x s).sel = s.sel := by unfold freeContext; (repeat' (first | split | dsimp only)) <;> simp
@[simp] theorem freeContext_gap (i : Nat) (x : Option Cause) (s : State) : (freeContext i x s).gap = s.gap := by unfold freeContext; (repeat' (first | split | dsimp only)) <;> simp
@[simp] theorem freeContext_time (i : Nat) (x : Option Cause) (s : State) : (freeContext i x s).time = s.time := by unfold freeContext; (repeat' (first | split | dsimp only)) <;> simp
@[simp] theorem freeContext_rate (i : Nat) (x : Option Cause) (s : State) : (freeContext i x s).rate = s.rate := by unfold freeContext; (repeat' (first | split | dsimp only)) <;> simp
@[simp] theorem freeContext_pending (i : Nat) (x : Option Cause) (s : State) : (freeContext i x s).pending = s.pending := by unfold freeContext; (repeat' (first | split | dsimp only)) <;> simp
@[simp] theorem selectAndReply_num (i : Nat) (s : State) : ((selectAndReply i s).1).num = s.num := by
  have h := requestSelection_num i s
  unfold selectAndReply; split <;> rename_i e <;> rw [e] at h <;> simpa using h
@[simp] theorem selectAndReply_sel (i : Nat) (s : State) : ((selectAndReply i s).1).sel = s.sel := by
  have h := requestSelection_sel i s
  unfold selectAndReply; split <;> rename_i e <;> rw [e] at h <;> simpa using h
@[simp] theorem selectAndReply_gap (i : Nat) (s : State) : ((selectAndReply i s).1).gap = s.gap := by
  have h := requestSelection_gap i s
  unfold selectAndReply; split <;> rename_i e <;> rw [e] at h <;> simpa using h
@[simp] theorem selectAndReply_time (i : Nat) (s : State) : ((selectAndReply i s).1).time = s.time := by
  have h := requestSelection_time i s
  unfold selectAndReply; split <;> rename_i e <;> rw [e] at h <;> simpa using h
@[simp] theorem selectAndReply_rate (i : Nat) (s : State) : ((selectAndReply i s).1).rate = s.rate := by
  have h := requestSelection_rate i s
  unfold selectAndReply; split <;> rename_i e <;> rw [e] at h <;> simpa using h
@[simp] theorem selectAndReply_pending (i : Nat) (s : State) : ((selectAndReply i s).1).pending = s.pending := by
  have h := requestSelection_pending i s
  unfold selectAndReply; split <;> rename_i e <;> rw [e] at h <;> simpa using h
@[simp] theorem selectAndReport_num (i : Nat) (x : ReportReason) (s : State) : (selectAndReport i x s).num = s.num := by
  have h := requestSelection_num i s
  unfold selectAndReport; split <;> rename_i e <;> rw [e] at h <;> simpa using h
@[simp] theorem selectAndReport_sel (i : Nat) (x : ReportReason) (s : State) : (selectAndReport i x s).sel = s.sel := by
  have h := requestSelection_sel i s
  unfold selectAndReport; split <;> rename_i e <;> rw [e] at h <;> simpa using h
@[simp] theorem selectAndReport_gap (i : Nat) (x : ReportReason) (s : State) : (selectAndReport i x s).gap = s.gap := by
  have h := requestSelection_gap i s
  unfold selectAndReport; split <;> rename_i e <;> rw [e] at h <;> simpa using h
@[simp] theorem selectAndReport_time (i : Nat) (x : ReportReason) (s : State) : (selectAndReport i x s).time = s.time := by
  have h := requestSelection_time i s
  unfold selectAndReport; split <;> rename_i e <;> rw [e] at h <;> simpa using h
@[simp] theorem selectAndReport_rate (i : Nat) (x : ReportReason) (s : State) : (selectAndReport i x s).rate = s.rate := by
  have h := requestSelection_rate i s
  unfold selectAndReport; split <;> rename_i e <;> rw [e] at h <;> simpa using h
@[simp] theorem selectAndReport_pending (i : Nat) (x : ReportReason) (s : State) : (selectAndReport i x s).pending = s.pending := by
  have h := requestSelection_pending i s
  unfold selectAndReport; split <;> rename_i e <;> rw [e] at h <;> simpa using h
@[simp] theorem endAttempt_sel (i : Nat) (c : Context) (o : AttemptOutcome) (s : State) : (endAttempt i c o s).sel = s.sel := by unfold endAttempt; (repeat' (first | split | dsimp only)) <;> simp
@[simp] theorem endAttempt_time (i : Nat) (c : Context) (o : AttemptOutcome) (s : State) : (endAttempt i c o s).time = s.time := by unfold endAttempt; (repeat' (first | split | dsimp only)) <;> simp
@[simp] theorem endAttempt_rate (i : Nat) (c : Context) (o : AttemptOutcome) (s : State) : (endAttempt i c o s).rate = s.rate := by unfold endAttempt; (repeat' (first | split | dsimp only)) <;> simp
@[simp] theorem endAttempt_eng (i : Nat) (c : Context) (o : AttemptOutcome) (s : State) : (endAttempt i c o s).eng = s.eng := by unfold endAttempt; (repeat' (first | split | dsimp only)) <;> simp
@[simp] theorem endAttempt_pending (i : Nat) (c : Context) (o : AttemptOutcome) (s : State) : (endAttempt i c o s).pending = s.pending := by unfold endAttempt; (repeat' (first | split | dsimp only)) <;> simp
@[simp] theorem rehunt_ctx (i : Nat) (c : Context) (a : Attempt) (s : State) : ((rehunt i c a s).1).ctx = s.ctx := by unfold rehunt; (repeat' (first | split | dsimp only)) <;> simp
@[simp] theorem rehunt_num (i : Nat) (c : Context) (a : Attempt) (s : State) : ((rehunt i c a s).1).num = s.num := by unfold rehunt; (repeat' (first | split | dsimp only)) <;> simp
@[simp] theorem rehunt_sel (i : Nat) (c : Context) (a : Attempt) (s : State) : ((rehunt i c a s).1).sel = s.sel := by unfold rehunt; (repeat' (first | split | dsimp only)) <;> simp
@[simp] theorem rehunt_gap (i : Nat) (c : Context) (a : Attempt) (s : State) : ((rehunt i c a s).1).gap = s.gap := by unfold rehunt; (repeat' (first | split | dsimp only)) <;> simp
@[simp] theorem rehunt_time (i : Nat) (c : Context) (a : Attempt) (s : State) : ((rehunt i c a s).1).time = s.time := by unfold rehunt; (repeat' (first | split | dsimp only)) <;> simp
@[simp] theorem rehunt_rate (i : Nat) (c : Context) (a : Attempt) (s : State) : ((rehunt i c a s).1).rate = s.rate := by unfold rehunt; (repeat' (first | split | dsimp only)) <;> simp
@[simp] theorem rehunt_eng (i : Nat) (c : Context) (a : Attempt) (s : State) : ((rehunt i c a s).1).eng = s.eng := by unfold rehunt; (repeat' (first | split | dsimp only)) <;> simp
@[simp] theorem rehunt_pending (i : Nat) (c : Context) (a : Attempt) (s : State) : ((rehunt i c a s).1).pending = s.pending := by unfold rehunt; (repeat' (first | split | dsimp only)) <;> simp
@[simp] theorem loseGlare_num (i : Nat) (s : State) : (loseGlare i s).num = s.num := by
  unfold loseGlare
  split
  · rfl
  rename_i c _
  split
  · rfl
  rename_i a _
  have h := rehunt_num i c a (modifyContext i Context.countGlare s)
  dsimp only
  split <;> rename_i e <;> rw [e] at h <;> simpa using h
@[simp] theorem loseGlare_sel (i : Nat) (s : State) : (loseGlare i s).sel = s.sel := by
  unfold loseGlare
  split
  · rfl
  rename_i c _
  split
  · rfl
  rename_i a _
  have h := rehunt_sel i c a (modifyContext i Context.countGlare s)
  dsimp only
  split <;> rename_i e <;> rw [e] at h <;> simpa using h
@[simp] theorem loseGlare_gap (i : Nat) (s : State) : (loseGlare i s).gap = s.gap := by
  unfold loseGlare
  split
  · rfl
  rename_i c _
  split
  · rfl
  rename_i a _
  have h := rehunt_gap i c a (modifyContext i Context.countGlare s)
  dsimp only
  split <;> rename_i e <;> rw [e] at h <;> simpa using h
@[simp] theorem loseGlare_time (i : Nat) (s : State) : (loseGlare i s).time = s.time := by
  unfold loseGlare
  split
  · rfl
  rename_i c _
  split
  · rfl
  rename_i a _
  have h := rehunt_time i c a (modifyContext i Context.countGlare s)
  dsimp only
  split <;> rename_i e <;> rw [e] at h <;> simpa using h
@[simp] theorem loseGlare_rate (i : Nat) (s : State) : (loseGlare i s).rate = s.rate := by
  unfold loseGlare
  split
  · rfl
  rename_i c _
  split
  · rfl
  rename_i a _
  have h := rehunt_rate i c a (modifyContext i Context.countGlare s)
  dsimp only
  split <;> rename_i e <;> rw [e] at h <;> simpa using h
@[simp] theorem loseGlare_pending (i : Nat) (s : State) : (loseGlare i s).pending = s.pending := by
  unfold loseGlare
  split
  · rfl
  rename_i c _
  split
  · rfl
  rename_i a _
  have h := rehunt_pending i c a (modifyContext i Context.countGlare s)
  dsimp only
  split <;> rename_i e <;> rw [e] at h <;> simpa using h
@[simp] theorem allocate_num (i : Nat) (c : SetupCall) (s : State) : (allocate i c s).num = s.num := by simp [allocate]
@[simp] theorem allocate_groups (i : Nat) (c : SetupCall) (s : State) : (allocate i c s).groups = s.groups := by simp [allocate]
@[simp] theorem allocate_sel (i : Nat) (c : SetupCall) (s : State) : (allocate i c s).sel = s.sel := by simp [allocate]
@[simp] theorem allocate_gap (i : Nat) (c : SetupCall) (s : State) : (allocate i c s).gap = s.gap := by simp [allocate]
@[simp] theorem allocate_time (i : Nat) (c : SetupCall) (s : State) : (allocate i c s).time = s.time := by simp [allocate]
@[simp] theorem allocate_rate (i : Nat) (c : SetupCall) (s : State) : (allocate i c s).rate = s.rate := by simp [allocate]
@[simp] theorem allocate_eng (i : Nat) (c : SetupCall) (s : State) : (allocate i c s).eng = s.eng := by simp [allocate]
@[simp] theorem allocate_pending (i : Nat) (c : SetupCall) (s : State) : (allocate i c s).pending = s.pending := by simp [allocate]
@[simp] theorem reportLevel_ctx (g a b : Nat) (s : State) : (reportLevel g a b s).ctx = s.ctx := by unfold reportLevel; (repeat' (first | split | dsimp only)) <;> simp
@[simp] theorem reportLevel_num (g a b : Nat) (s : State) : (reportLevel g a b s).num = s.num := by unfold reportLevel; (repeat' (first | split | dsimp only)) <;> simp
@[simp] theorem reportLevel_groups (g a b : Nat) (s : State) : (reportLevel g a b s).groups = s.groups := by unfold reportLevel; (repeat' (first | split | dsimp only)) <;> simp
@[simp] theorem reportLevel_sel (g a b : Nat) (s : State) : (reportLevel g a b s).sel = s.sel := by unfold reportLevel; (repeat' (first | split | dsimp only)) <;> simp
@[simp] theorem reportLevel_gap (g a b : Nat) (s : State) : (reportLevel g a b s).gap = s.gap := by unfold reportLevel; (repeat' (first | split | dsimp only)) <;> simp
@[simp] theorem reportLevel_time (g a b : Nat) (s : State) : (reportLevel g a b s).time = s.time := by unfold reportLevel; (repeat' (first | split | dsimp only)) <;> simp
@[simp] theorem reportLevel_rate (g a b : Nat) (s : State) : (reportLevel g a b s).rate = s.rate := by unfold reportLevel; (repeat' (first | split | dsimp only)) <;> simp
@[simp] theorem reportLevel_eng (g a b : Nat) (s : State) : (reportLevel g a b s).eng = s.eng := by unfold reportLevel; (repeat' (first | split | dsimp only)) <;> simp
@[simp] theorem reportLevel_pending (g a b : Nat) (s : State) : (reportLevel g a b s).pending = s.pending := by unfold reportLevel; (repeat' (first | split | dsimp only)) <;> simp
@[simp] theorem judgeWindow_ctx (g : Nat) (s : State) : (judgeWindow g s).ctx = s.ctx := by unfold judgeWindow; (repeat' (first | split | dsimp only)) <;> simp
@[simp] theorem judgeWindow_num (g : Nat) (s : State) : (judgeWindow g s).num = s.num := by unfold judgeWindow; (repeat' (first | split | dsimp only)) <;> simp
@[simp] theorem judgeWindow_sel (g : Nat) (s : State) : (judgeWindow g s).sel = s.sel := by unfold judgeWindow; (repeat' (first | split | dsimp only)) <;> simp
@[simp] theorem judgeWindow_gap (g : Nat) (s : State) : (judgeWindow g s).gap = s.gap := by unfold judgeWindow; (repeat' (first | split | dsimp only)) <;> simp
@[simp] theorem judgeWindow_time (g : Nat) (s : State) : (judgeWindow g s).time = s.time := by unfold judgeWindow; (repeat' (first | split | dsimp only)) <;> simp
@[simp] theorem judgeWindow_rate (g : Nat) (s : State) : (judgeWindow g s).rate = s.rate := by unfold judgeWindow; (repeat' (first | split | dsimp only)) <;> simp
@[simp] theorem judgeWindow_eng (g : Nat) (s : State) : (judgeWindow g s).eng = s.eng := by unfold judgeWindow; (repeat' (first | split | dsimp only)) <;> simp
@[simp] theorem judgeWindow_pending (g : Nat) (s : State) : (judgeWindow g s).pending = s.pending := by unfold judgeWindow; (repeat' (first | split | dsimp only)) <;> simp
@[simp] theorem advanceWindow_ctx (g : Nat) (s : State) : (advanceWindow g s).ctx = s.ctx := by unfold advanceWindow; (repeat' (first | split | dsimp only)) <;> simp
@[simp] theorem advanceWindow_num (g : Nat) (s : State) : (advanceWindow g s).num = s.num := by unfold advanceWindow; (repeat' (first | split | dsimp only)) <;> simp
@[simp] theorem advanceWindow_sel (g : Nat) (s : State) : (advanceWindow g s).sel = s.sel := by unfold advanceWindow; (repeat' (first | split | dsimp only)) <;> simp
@[simp] theorem advanceWindow_gap (g : Nat) (s : State) : (advanceWindow g s).gap = s.gap := by unfold advanceWindow; (repeat' (first | split | dsimp only)) <;> simp
@[simp] theorem advanceWindow_time (g : Nat) (s : State) : (advanceWindow g s).time = s.time := by unfold advanceWindow; (repeat' (first | split | dsimp only)) <;> simp
@[simp] theorem advanceWindow_rate (g : Nat) (s : State) : (advanceWindow g s).rate = s.rate := by unfold advanceWindow; (repeat' (first | split | dsimp only)) <;> simp
@[simp] theorem advanceWindow_eng (g : Nat) (s : State) : (advanceWindow g s).eng = s.eng := by unfold advanceWindow; (repeat' (first | split | dsimp only)) <;> simp
@[simp] theorem advanceWindow_pending (g : Nat) (s : State) : (advanceWindow g s).pending = s.pending := by unfold advanceWindow; (repeat' (first | split | dsimp only)) <;> simp
@[simp] theorem advanceWindows_ctx (s : State) : (advanceWindows s).ctx = s.ctx := by
  unfold advanceWindows
  split
  · rename_i hr
    clear hr
    generalize s.groups.map (·.1) = l
    induction l generalizing s with
    | nil => rfl
    | cons a t ih => rw [List.foldl_cons, ih]; simp
  · rfl
@[simp] theorem advanceWindows_num (s : State) : (advanceWindows s).num = s.num := by
  unfold advanceWindows
  split
  · rename_i hr
    clear hr
    generalize s.groups.map (·.1) = l
    induction l generalizing s with
    | nil => rfl
    | cons a t ih => rw [List.foldl_cons, ih]; simp
  · rfl
@[simp] theorem advanceWindows_sel (s : State) : (advanceWindows s).sel = s.sel := by
  unfold advanceWindows
  split
  · rename_i hr
    clear hr
    generalize s.groups.map (·.1) = l
    induction l generalizing s with
    | nil => rfl
    | cons a t ih => rw [List.foldl_cons, ih]; simp
  · rfl
@[simp] theorem advanceWindows_gap (s : State) : (advanceWindows s).gap = s.gap := by
  unfold advanceWindows
  split
  · rename_i hr
    clear hr
    generalize s.groups.map (·.1) = l
    induction l generalizing s with
    | nil => rfl
    | cons a t ih => rw [List.foldl_cons, ih]; simp
  · rfl
@[simp] theorem advanceWindows_time (s : State) : (advanceWindows s).time = s.time := by
  unfold advanceWindows
  split
  · rename_i hr
    clear hr
    generalize s.groups.map (·.1) = l
    induction l generalizing s with
    | nil => rfl
    | cons a t ih => rw [List.foldl_cons, ih]; simp
  · rfl
@[simp] theorem advanceWindows_rate (s : State) : (advanceWindows s).rate = s.rate := by
  unfold advanceWindows
  split
  · rename_i hr
    clear hr
    generalize s.groups.map (·.1) = l
    induction l generalizing s with
    | nil => rfl
    | cons a t ih => rw [List.foldl_cons, ih]; simp
  · rfl
@[simp] theorem advanceWindows_eng (s : State) : (advanceWindows s).eng = s.eng := by
  unfold advanceWindows
  split
  · rename_i hr
    clear hr
    generalize s.groups.map (·.1) = l
    induction l generalizing s with
    | nil => rfl
    | cons a t ih => rw [List.foldl_cons, ih]; simp
  · rfl
@[simp] theorem advanceWindows_pending (s : State) : (advanceWindows s).pending = s.pending := by
  unfold advanceWindows
  split
  · rename_i hr
    clear hr
    generalize s.groups.map (·.1) = l
    induction l generalizing s with
    | nil => rfl
    | cons a t ih => rw [List.foldl_cons, ih]; simp
  · rfl

end Sys2Proof.Machine
end

