-- ==== Sys2Proof/Laws/Ops.lean ====
section
/-! SUPPORT. What each shared operation can do to the link, said once; how a request is taken and answered. -/

namespace Sys2Proof.Machine

open Sys2Proof

/-! ### Gains of the link -/

namespace Link.GainsOnly

variable {p q : Message → Bool} {l m n : Link}

theorem refl (p : Message → Bool) (l : Link) : l.GainsOnly p l :=
  ⟨rfl, rfl, rfl, rfl, rfl, rfl, rfl, rfl, rfl, [], by simp, by simp⟩

theorem trans (h : l.GainsOnly p m) (k : m.GainsOnly p n) : l.GainsOnly p n := by
  obtain ⟨ms, hms, hp⟩ := h.queue
  obtain ⟨ns, hns, kp⟩ := k.queue
  refine ⟨k.rx.trans h.rx, k.inBuf.trans h.inBuf, k.reserved.trans h.reserved, k.checkErrors.trans h.checkErrors,
    k.overruns.trans h.overruns, k.rejects.trans h.rejects, k.enabled.trans h.enabled,
    k.resetLine.trans h.resetLine, k.txd.trans h.txd, ms ++ ns, by rw [hns, hms, List.append_assoc], ?_⟩
  intro x hx
  rcases List.mem_append.1 hx with hx | hx
  · exact hp x hx
  · exact kp x hx

theorem mono (h : l.GainsOnly p m) (k : ∀ x, p x = true → q x = true) : l.GainsOnly q m := by
  obtain ⟨ms, hms, hp⟩ := h.queue
  exact ⟨h.rx, h.inBuf, h.reserved, h.checkErrors, h.overruns, h.rejects, h.enabled, h.resetLine, h.txd, ms, hms,
    fun x hx => k x (hp x hx)⟩

theorem since (k : m.GainsOnly p n) (h : m = l) : l.GainsOnly p n := h ▸ k

theorem after (k : m.GainsOnly p n) (h : l.GainsOnly p m) : l.GainsOnly p n := h.trans k

end Link.GainsOnly

/-- Notices are no replies. -/
theorem Link.GainsOnly.notices {l m : Link} (h : l.GainsOnly Message.isNotice m) :
    l.GainsOnly (fun x => !x.isReply) m :=
  h.mono (fun x hx => by cases x <;> simp_all [Message.isNotice, Message.isReply])

/-- Everything a notice can do to the link (R194): nothing, one message more, or one more lost. -/
theorem Link.notice_cases (n : Notice) (l : Link) :
    l.notice n = l ∨ l.notice n = l.enqueue (.notice n) ∨
      l.notice n = { l with noticesLost := satAdd Config.counterBound l.noticesLost 1 } := by
  unfold Link.notice; split
  · split <;> simp
  · simp

theorem postNotice_gains (n : Notice) (s : State) : s.link.GainsOnly Message.isNotice (postNotice n s).link := by
  show s.link.GainsOnly _ (s.link.notice n)
  rcases s.link.notice_cases n with h | h | h <;> rw [h]
  · exact .refl _ _
  · exact ⟨rfl, rfl, rfl, rfl, rfl, rfl, rfl, rfl, rfl, [.notice n], rfl, by simp [Message.isNotice]⟩
  · exact ⟨rfl, rfl, rfl, rfl, rfl, rfl, rfl, rfl, rfl, [], by simp, by simp⟩

theorem setCondition_gains (c : Condition) (b : Bool) (s : State) :
    s.link.GainsOnly Message.isNotice (setCondition c b s).link := by
  unfold setCondition; split
  · exact .refl _ _
  · refine .trans ?_ (postNotice_gains _ _)
    exact ⟨rfl, rfl, rfl, rfl, rfl, rfl, rfl, rfl, rfl, [], by simp, by simp⟩

theorem recheck_gains (c : Condition) (s : State) : s.link.GainsOnly Message.isNotice (recheck c s).link :=
  setCondition_gains _ _ _

theorem callReport_gains (i : Nat) (r : CallReport) (s : State) :
    s.link.GainsOnly (fun x => !x.isReply) (callReport i r s).link := by
  unfold callReport; split
  · exact .refl _ _
  · split
    · exact ⟨rfl, rfl, rfl, rfl, rfl, rfl, rfl, rfl, rfl, [.report r], rfl, by simp [Message.isReply]⟩
    · exact .refl _ _

theorem raiseCounter_gains (g : Nat) (n : CounterName) (s : State) :
    s.link.GainsOnly Message.isNotice (raiseCounter g n s).link := by
  unfold raiseCounter; split
  · exact .refl _ _
  · dsimp only; split
    · exact (recheck_gains _ _).after ((postNotice_gains _ _).since rfl)
    · exact .refl _ _

theorem releaseCircuit_gains (g c : Nat) (f : Bool) (x : Nat) (s : State) :
    s.link.GainsOnly Message.isNotice (releaseCircuit g c f x s).link := by
  unfold releaseCircuit
  repeat' (first | split | dsimp only)
  · exact .refl _ _
  · exact .refl _ _
  · exact .refl _ _
  · exact (postNotice_gains _ _).since rfl
  · exact .refl _ _

theorem hunt_gains (g x : Nat) (s : State) : s.link.GainsOnly Message.isNotice (hunt g x s).1.link := by
  unfold hunt; split
  · exact .refl _ _
  · split
    · exact .refl _ _
    · exact (raiseCounter_gains _ _ _).since rfl

theorem markIncoming_gains (g c x : Nat) (s : State) :
    s.link.GainsOnly Message.isNotice (markIncoming g c x s).1.link := by
  unfold markIncoming
  have hg : ∀ t : State, t.link.GainsOnly Message.isNotice (grantMark g c x t).link :=
    fun t => (raiseCounter_gains _ _ _).since rfl
  repeat' (first | split | dsimp only)
  all_goals first | exact .refl _ _ | exact hg s | skip
  unfold markCollision
  repeat' (first | split | dsimp only)
  all_goals first | exact .refl _ _ | exact raiseCounter_gains _ _ _ | skip
  exact (raiseCounter_gains _ _ _).after ((raiseCounter_gains _ _ _).since rfl)

theorem setEngine_gains (a : EngineState) (b : HoldReason) (s : State) :
    s.link.GainsOnly Message.isNotice (setEngine a b s).link := by
  unfold setEngine; split
  · exact .refl _ _
  · dsimp only
    refine Link.GainsOnly.trans ?_ (recheck_gains _ _)
    exact (postNotice_gains _ _).since rfl

theorem engineCheck_gains (s : State) : s.link.GainsOnly Message.isNotice (engineCheck s).link := by
  unfold engineCheck
  repeat' split
  all_goals first | exact .refl _ _ | exact setEngine_gains _ _ _

theorem handFault_gains (f : TableFault) (s : State) :
    s.link.GainsOnly Message.isNotice (handFault f s).link := by
  unfold handFault; split
  · dsimp only
    refine Link.GainsOnly.trans ?_ (recheck_gains _ _)
    exact (postNotice_gains _ _).since rfl
  · unfold escalate; split <;> exact (setEngine_gains _ _ _).since rfl

theorem countBids_gains (l : List Candidate) (s : State) :
    s.link.GainsOnly Message.isNotice (countBids l s).link := by
  unfold countBids
  induction l generalizing s with
  | nil => exact .refl _ _
  | cons a t ih =>
    refine .trans ?_ (ih _)
    unfold countBid
    dsimp only
    split
    · exact .refl _ _
    · split
      · exact .trans (raiseCounter_gains _ _ _) (raiseCounter_gains _ _ _)
      · exact raiseCounter_gains _ _ _

theorem seizeFor_gains (i : Nat) (c : Context) (g p : Nat) (s : State) :
    s.link.GainsOnly Message.isNotice (seizeFor i c g p s).1.link := by
  have h := hunt_gains g (refOf s i) s
  unfold seizeFor; split <;> rename_i e <;> rw [e] at h <;> simpa using h

theorem runSelection_gains (i : Nat) (c : Context) (s : State) :
    s.link.GainsOnly Message.isNotice (runSelection i c s).1.link := by
  unfold runSelection
  repeat' (first | split | dsimp only)
  · exact handFault_gains _ _
  · exact .refl _ _
  · exact .trans (countBids_gains _ _) (seizeFor_gains _ _ _ _ _)
  · exact .trans (countBids_gains _ _) (handFault_gains _ _)
  · exact countBids_gains _ _

theorem requestSelection_gains (i : Nat) (s : State) :
    s.link.GainsOnly Message.isNotice (requestSelection i s).1.link := by
  unfold requestSelection
  repeat' (first | split | dsimp only)
  all_goals first | exact .refl _ _ | exact runSelection_gains _ _ _ | skip
  have := engineCheck_gains (enterHeld i (by assumption : Context).prio s)
  simpa using this

theorem enterRecord_gains (r : RecordBody) (s : State) :
    s.link.GainsOnly Message.isNotice (enterRecord r s).link :=
  (recheck_gains _ _).since rfl

theorem joinFree_gains (i : Nat) (s : State) : s.link.GainsOnly Message.isNotice (joinFree i s).link := by
  unfold joinFree; split
  · exact .refl _ _
  · exact (recheck_gains _ _).since rfl

theorem releaseCircuits_gains (i : Nat) (c : Context) (s : State) :
    s.link.GainsOnly Message.isNotice (releaseCircuits i c s).link := by
  unfold releaseCircuits
  repeat' (first | split | dsimp only)
  · exact releaseCircuit_gains _ _ _ _ _
  · exact .trans (releaseCircuit_gains _ _ _ _ _) (releaseCircuit_gains _ _ _ _ _)
  · exact .refl _ _
  · exact releaseCircuit_gains _ _ _ _ _

theorem dropContext_gains (i : Nat) (s : State) : s.link.GainsOnly Message.isNotice (dropContext i s).link :=
  (recheck_gains _ _).after ((engineCheck_gains _).since rfl)

/-- Freeing without a report sends notices only (R16). -/
theorem freeContext_none_gains (i : Nat) (s : State) :
    s.link.GainsOnly Message.isNotice (freeContext i none s).link := by
  unfold freeContext; split
  · exact .refl _ _
  · exact (joinFree_gains _ _).after ((dropContext_gains _ _).after ((releaseCircuits_gains _ _ _).since rfl))

theorem freeContext_gains (i : Nat) (x : Option Cause) (s : State) :
    s.link.GainsOnly (fun x => !x.isReply) (freeContext i x s).link := by
  cases x with
  | none => exact (freeContext_none_gains i s).notices
  | some cause =>
    unfold freeContext; split
    · exact .refl _ _
    · exact (joinFree_gains _ _).notices.after ((dropContext_gains _ _).notices.after
        ((callReport_gains _ _ _).after ((releaseCircuits_gains _ _ _).notices.since rfl)))

theorem selectAndReply_gains (i : Nat) (s : State) :
    s.link.GainsOnly Message.isNotice (selectAndReply i s).1.link := by
  have h := requestSelection_gains i s
  unfold selectAndReply; split <;> rename_i e <;> rw [e] at h
  · exact h
  · exact h
  · exact h.trans (freeContext_none_gains _ _)

theorem selectAndReport_gains (i : Nat) (x : ReportReason) (s : State) :
    s.link.GainsOnly (fun x => !x.isReply) (selectAndReport i x s).link := by
  have h := requestSelection_gains i s
  unfold selectAndReport; split <;> rename_i e <;> rw [e] at h
  · exact h.notices.trans (callReport_gains _ _ _)
  · exact h.notices
  · exact h.notices.trans (freeContext_gains _ _ _)

theorem automaticGap_gains (d : List Nat) (n l : Nat) (s : State) :
    s.link.GainsOnly Message.isNotice (automaticGap d n l s).link := by
  unfold automaticGap createAutoGap
  repeat' (first | split | dsimp only)
  · exact (postNotice_gains _ _).since rfl
  · exact (postNotice_gains _ _).since rfl
  · exact (postNotice_gains _ _).since rfl
  · exact postNotice_gains _ _
  · exact postNotice_gains _ _

theorem offerDestination_gains (m : Option (BankId × Nat)) (s : State) :
    s.link.GainsOnly Message.isNotice (offerDestination m s).link := by
  unfold offerDestination
  repeat' (first | split | dsimp only)
  all_goals first | exact .refl _ _ | exact (automaticGap_gains _ _ _ _).since rfl

theorem endAttempt_gains (i : Nat) (c : Context) (o : AttemptOutcome) (s : State) :
    s.link.GainsOnly Message.isNotice (endAttempt i c o s).link := by
  unfold endAttempt
  have hr : ∀ (g k : Nat) (f : Bool) (x : Nat) (t : State),
      t.link.GainsOnly Message.isNotice (raiseCounter g .crankbacks (releaseCircuit g k f x t)).link :=
    fun g k f x t => .trans (releaseCircuit_gains _ _ _ _ _) (raiseCounter_gains _ _ _)
  repeat' (first | split | dsimp only)
  · exact .refl _ _
  · exact .trans (hr _ _ _ _ (modifyContext _ _ s)) (offerDestination_gains _ _)
  · exact hr _ _ _ _ (modifyContext _ _ s)

theorem loseGlare_gains (i : Nat) (s : State) :
    s.link.GainsOnly (fun x => !x.isReply) (loseGlare i s).link := by
  unfold loseGlare
  split
  · exact .refl _ _
  rename_i c _
  split
  · exact .refl _ _
  rename_i a _
  have h : s.link.GainsOnly Message.isNotice (rehunt i c a (modifyContext i Context.countGlare s)).1.link := by
    unfold rehunt
    repeat' split
    · exact .refl _ _
    · exact (hunt_gains _ _ _).since rfl
    · exact .refl _ _
  dsimp only
  split <;> rename_i e <;> rw [e] at h
  · exact h.notices.trans ((callReport_gains _ _ _).since rfl)
  · exact h.notices.trans ((selectAndReport_gains _ _ _).since rfl)

theorem allocate_gains (i : Nat) (c : SetupCall) (s : State) :
    s.link.GainsOnly Message.isNotice (allocate i c s).link :=
  (recheck_gains _ _).since rfl

theorem reportLevel_gains (g a b : Nat) (s : State) :
    s.link.GainsOnly Message.isNotice (reportLevel g a b s).link := by
  unfold reportLevel; split
  · exact .refl _ _
  · exact .trans (postNotice_gains _ _) (recheck_gains _ _)

/-! ### Taking and answering (R192) -/

/-- A frame is taken exactly when it can be: its places are reserved and it has left the buffer. -/
theorem takeFrame_eq (isMine : Frame → Bool) (places : Nat) (s : State) :
    takeFrame isMine places s =
      if canTake isMine places s then
        some { s with link := { s.link.taken with reserved := s.link.reserved + places } }
      else none := by
  unfold takeFrame canTake Link.offers Link.taken
  cases hr : s.link.resetLine
  · by_cases hf : s.link.free < places
    · simp [hf, Nat.not_le.2 hf]
    · simp only [Bool.false_eq_true, if_false, hf, Nat.not_lt.1 hf, decide_true, Bool.not_false, Bool.true_and]
      cases hb : s.link.inBuf with
      | nil => simp [hr]
      | cons f t => cases hm : isMine f <;> simp [hm, hr]
  · simp

/-- The state in which a request of one place acts: its frame taken, one place reserved. -/
def State.atTaking (s : State) : State :=
  { s with link := { s.link.taken with reserved := s.link.reserved + 1 } }

/-- Everything that `arrive` can do (R191, R192): nothing, one frame more at the tail, or one more overrun. -/
theorem arrive_cases (isMine : Frame → Bool) (f : Frame) (s : State) :
    arrive isMine f s = s ∨
      s.link.inBuf.length < Config.inPlaces ∧
        arrive isMine f s = { s with link := { s.link with inBuf := s.link.inBuf ++ [f] } } ∨
      Config.inPlaces ≤ s.link.inBuf.length ∧
        arrive isMine f s =
          { s with link := { s.link with overruns := satAdd Config.counterBound s.link.overruns 1 } } := by
  unfold arrive Link.accept
  split
  · exact .inl rfl
  · split
    · exact .inr (.inl ⟨‹_›, rfl⟩)
    · exact .inr (.inr ⟨Nat.not_lt.1 ‹_›, rfl⟩)

/-- A frame is taken and its test judged, or it waits (R192). -/
theorem serveFrame_eq (isMine : Frame → Bool) (f : Frame) (fault : Option RejectReason) (act : State → State)
    (s : State) :
    serveFrame isMine f fault act s =
      if canTake isMine (placesNeeded f.kind) s then
        let t : State := { s with link := { s.link.taken with reserved := s.link.reserved + placesNeeded f.kind } }
        match fault with
        | some reason => rejectTaken f.kind f.tag reason t
        | none => act t
      else arrive isMine f s := by
  unfold serveFrame
  rw [takeFrame_eq]
  cases canTake isMine (placesNeeded f.kind) s <;> rfl

/-- A request that can be taken is answered by what its block does (R192). -/
theorem request_of_ready {c : Instr} {kind : Byte} {tag : Tag} {act : State → State × Reply} {s : State}
    (hk : kind ≠ 84) (h : ready kind tag s = true) :
    request c kind tag act s = .next (sendReply tag (act s.atTaking).2 (act s.atTaking).1) := by
  simp only [ready, placesNeeded, hk, if_false, Bool.and_eq_true, bne_iff_ne, ne_eq] at h
  simp only [request, serve, serveFrame_eq, requestFrame, placesNeeded, hk, if_false, h.1, if_true, tagFault, h.2,
    State.atTaking]

/-- A request that cannot be taken waits in the input buffer (R192, log 7). -/
theorem request_of_not {c : Instr} {kind : Byte} {tag : Tag} {act : State → State × Reply} {s : State}
    (h : canTake (isRequest kind tag) (placesNeeded kind) s = false) :
    request c kind tag act s = .next (arrive (isRequest kind tag) (requestFrame c kind tag) s) := by
  simp [request, serve, serveFrame_eq, requestFrame, h]

@[simp] theorem atTaking_ctx (s : State) : s.atTaking.ctx = s.ctx := rfl
@[simp] theorem atTaking_num (s : State) : s.atTaking.num = s.num := rfl
@[simp] theorem atTaking_groups (s : State) : s.atTaking.groups = s.groups := rfl
@[simp] theorem atTaking_sel (s : State) : s.atTaking.sel = s.sel := rfl
@[simp] theorem atTaking_gap (s : State) : s.atTaking.gap = s.gap := rfl
@[simp] theorem atTaking_time (s : State) : s.atTaking.time = s.time := rfl
@[simp] theorem atTaking_rate (s : State) : s.atTaking.rate = s.rate := rfl
@[simp] theorem atTaking_eng (s : State) : s.atTaking.eng = s.eng := rfl
@[simp] theorem atTaking_pending (s : State) : s.atTaking.pending = s.pending := rfl
@[simp] theorem atTaking_conditions (s : State) : s.atTaking.link.conditions = s.link.conditions := rfl
@[simp] theorem atTaking_enabled (s : State) : s.atTaking.link.enabled = s.link.enabled := rfl

/-- A reply sent with nothing produced before it. -/
theorem sendReply_atTaking (tag : Tag) (r : Reply) (s : State) :
    sendReply tag r s.atTaking = { s with link := s.link.answered tag r } := by
  simp [sendReply, State.atTaking, Link.answered, Link.taken, Link.enqueue]

/-- A block that sends nothing leaves a reply sent after it the only message. -/
theorem link_answered_of (tag : Tag) (r : Reply) (s t : State) (h : t.link = s.atTaking.link) :
    (sendReply tag r t).link = s.link.answered tag r := by
  simp [sendReply, h, State.atTaking, Link.answered, Link.taken, Link.enqueue]

/-- Notices, then the reply: from a block that sends notices only. -/
theorem noticesThenReply_of {tag : Tag} {r : Reply} {s u : State}
    (h : s.atTaking.link.GainsOnly Message.isNotice u.link) : NoticesThenReply tag r s (sendReply tag r u) := by
  obtain ⟨ms, hms, hp⟩ := h.queue
  refine ⟨{ u.link with reserved := s.link.reserved }, ?_, ?_⟩
  · exact ⟨h.rx, h.inBuf, rfl, h.checkErrors, h.overruns, h.rejects, h.enabled, h.resetLine, h.txd, ms, hms, hp⟩
  · have := h.reserved
    simp only [State.atTaking] at this
    simp [sendReply, Link.enqueue, this]

/-- Notices and call reports, then the reply: from a block that sends no reply. -/
theorem answersWith_of {tag : Tag} {r : Reply} {s u : State}
    (h : s.atTaking.link.GainsOnly (fun x => !x.isReply) u.link) : AnswersWith tag r s (sendReply tag r u) := by
  obtain ⟨ms, hms, hp⟩ := h.queue
  refine ⟨{ u.link with reserved := s.link.reserved }, ?_, ?_⟩
  · exact ⟨h.rx, h.inBuf, rfl, h.checkErrors, h.overruns, h.rejects, h.enabled, h.resetLine, h.txd, ms, hms, hp⟩
  · have := h.reserved
    simp only [State.atTaking] at this
    simp [sendReply, Link.enqueue, this]

end Sys2Proof.Machine
end

