-- ==== Sys2Proof/Laws/Table.lean ====
section
/-! SUPPORT. The laws of the sparse tables: reading after writing, and that every table operation keeps the numbers
strictly rising. -/

namespace Sys2Proof.Machine

open Sys2Proof

variable {α : Type}

@[simp] theorem Table.find_nil (i : Nat) : Table.find ([] : Table α) i = none := rfl

theorem Table.find_cons (k : Nat) (v : α) (t : Table α) (i : Nat) :
    Table.find ((k, v) :: t) i = if k = i then some v else Table.find t i := rfl

theorem Table.wf_cons (k : Nat) (v : α) (t : Table α) :
    Table.wf ((k, v) :: t) = true ↔ (∀ e ∈ t, k < e.1) ∧ Table.wf t = true := by
  simp [Table.wf]

theorem Table.find_of_lt (t : Table α) (i : Nat) (h : ∀ e ∈ t, i < e.1) : Table.find t i = none := by
  induction t with
  | nil => rfl
  | cons e t ih =>
    obtain ⟨k, v⟩ := e
    have hk : i < k := h (k, v) (by simp)
    rw [Table.find_cons, if_neg (by omega), ih (fun e he => h e (by simp [he]))]

theorem Table.mem_of_find (t : Table α) (i : Nat) (v : α) (h : Table.find t i = some v) : (i, v) ∈ t := by
  induction t with
  | nil => simp at h
  | cons e t ih =>
    obtain ⟨k, w⟩ := e
    rw [Table.find_cons] at h
    split at h
    · cases h; subst k; simp
    · simp [ih h]

theorem Table.find_of_mem (t : Table α) (hw : Table.wf t = true) (i : Nat) (v : α) (h : (i, v) ∈ t) :
    Table.find t i = some v := by
  induction t with
  | nil => simp at h
  | cons e t ih =>
    obtain ⟨k, w⟩ := e
    obtain ⟨hlt, hwf⟩ := (Table.wf_cons k w t).1 hw
    rw [Table.find_cons]
    rcases List.mem_cons.1 h with h | h
    · cases h; simp
    · have := hlt _ h
      rw [if_neg (by simp at this; omega)]
      exact ih hwf h

/-- Reading after writing. -/
theorem Table.find_put (t : Table α) (i j : Nat) (v : α) :
    Table.find (Table.put t i v) j = if i = j then some v else Table.find t j := by
  induction t with
  | nil => simp [Table.put, Table.find]
  | cons e t ih =>
    obtain ⟨k, w⟩ := e
    by_cases h1 : i < k
    · simp [Table.put, h1, Table.find]
    · by_cases h2 : i = k
      · subst i; simp [Table.put, Table.find]; by_cases k = j <;> simp [*]
      · simp only [Table.put, h1, h2, if_false, Table.find_cons, ih]
        by_cases h3 : i = j
        · subst i; simp [Ne.symm h2]
        · simp [h3]

@[simp] theorem Table.find_put_self (t : Table α) (i : Nat) (v : α) :
    Table.find (Table.put t i v) i = some v := by simp [Table.find_put]

theorem Table.find_put_ne (t : Table α) (i j : Nat) (v : α) (h : i ≠ j) :
    Table.find (Table.put t i v) j = Table.find t j := by simp [Table.find_put, h]

theorem Table.find_filter_key (t : Table α) (p : Nat → Bool) (j : Nat) :
    Table.find (t.filter (fun e => p e.1)) j = if p j then Table.find t j else none := by
  induction t with
  | nil => simp
  | cons e t ih =>
    obtain ⟨k, w⟩ := e
    by_cases h : p k
    · simp only [List.filter_cons, h, if_true, Table.find_cons, ih]
      by_cases hk : k = j
      · subst k; simp [h]
      · simp [hk]
    · rw [List.filter_cons_of_neg (by simpa using h), ih, Table.find_cons]
      by_cases hk : k = j
      · subst k; simp [h]
      · simp [hk]

/-- Reading after deleting. -/
theorem Table.find_del (t : Table α) (i j : Nat) :
    Table.find (Table.del t i) j = if i = j then none else Table.find t j := by
  have := Table.find_filter_key t (fun k => k != i) j
  simp only [Table.del] at *
  rw [this]
  by_cases h : i = j
  · subst i; simp
  · simp [h, Ne.symm h]

/-- Reading after changing the record under a number. -/
theorem Table.find_modify (t : Table α) (i j : Nat) (f : α → α) :
    Table.find (Table.modify t i f) j = if i = j then (Table.find t j).map f else Table.find t j := by
  induction t with
  | nil => simp [Table.modify]
  | cons e t ih =>
    obtain ⟨k, w⟩ := e
    simp only [Table.modify] at ih
    simp only [Table.modify, List.map_cons]
    by_cases hk : k = i
    · subst k
      simp only [if_true, Table.find_cons, ih]
      by_cases h : i = j <;> simp [h]
    · simp only [hk, if_false, Table.find_cons, ih]
      by_cases h : k = j
      · subst k; simp [Ne.symm hk]
      · simp [h]

@[simp] theorem Table.find_map_snd (t : Table α) (f : α → α) (j : Nat) :
    Table.find (t.map (fun e => (e.1, f e.2))) j = (Table.find t j).map f := by
  induction t with
  | nil => rfl
  | cons e t ih =>
    obtain ⟨k, w⟩ := e
    simp only [List.map_cons, Table.find_cons, ih]
    by_cases h : k = j <;> simp [h]

/-- Reading after a write that may unlist its entry. -/
theorem Table.getD_store [DecidableEq α] (t : Table α) (i j : Nat) (v d : α) :
    Table.getD (Table.store t i v d) j d = if i = j then v else Table.getD t j d := by
  unfold Table.store Table.getD
  by_cases h : v = d
  · simp only [h, if_true, Table.find_del]; by_cases hj : i = j <;> simp [hj]
  · simp only [h, if_false, Table.find_put]; by_cases hj : i = j <;> simp [hj]

/-! ### The canonical form is kept -/

theorem Table.mem_put (t : Table α) (i : Nat) (v : α) (e : Nat × α) (h : e ∈ Table.put t i v) :
    e = (i, v) ∨ e ∈ t := by
  induction t with
  | nil => simp [Table.put] at h; simp [h]
  | cons a t ih =>
    obtain ⟨k, w⟩ := a
    simp only [Table.put] at h
    split at h
    · simpa using h
    · split at h
      · rcases List.mem_cons.1 h with h | h <;> simp [h]
      · rcases List.mem_cons.1 h with h | h
        · simp [h]
        · rcases ih h with h | h <;> simp [h]

theorem Table.wf_put (t : Table α) (i : Nat) (v : α) (h : Table.wf t = true) : Table.wf (Table.put t i v) = true := by
  induction t with
  | nil => simp [Table.put, Table.wf]
  | cons a t ih =>
    obtain ⟨k, w⟩ := a
    obtain ⟨hlt, hwf⟩ := (Table.wf_cons k w t).1 h
    simp only [Table.put]
    split
    · rename_i hik
      refine (Table.wf_cons _ _ _).2 ⟨?_, h⟩
      intro e he
      rcases List.mem_cons.1 he with rfl | he
      · exact hik
      · exact Nat.lt_trans hik (hlt e he)
    · split
      · rename_i hik; subst i; exact (Table.wf_cons _ _ _).2 ⟨hlt, hwf⟩
      · refine (Table.wf_cons _ _ _).2 ⟨?_, ih hwf⟩
        intro e he
        rcases Table.mem_put t i v e he with rfl | he
        · simp; omega
        · exact hlt e he

theorem Table.wf_filter (t : Table α) (p : Nat × α → Bool) (h : Table.wf t = true) :
    Table.wf (t.filter p) = true := by
  induction t with
  | nil => rfl
  | cons a t ih =>
    obtain ⟨k, w⟩ := a
    obtain ⟨hlt, hwf⟩ := (Table.wf_cons k w t).1 h
    simp only [List.filter_cons]
    split
    · exact (Table.wf_cons _ _ _).2 ⟨fun e he => hlt e (List.mem_filter.1 he).1, ih hwf⟩
    · exact ih hwf

theorem Table.wf_del (t : Table α) (i : Nat) (h : Table.wf t = true) : Table.wf (Table.del t i) = true :=
  Table.wf_filter t _ h

theorem Table.wf_of_keys {β : Type} (t : Table α) (u : Table β) (hk : t.map (·.1) = u.map (·.1))
    (h : Table.wf t = true) : Table.wf u = true := by
  induction t generalizing u with
  | nil => simp at hk; subst hk; rfl
  | cons a t ih =>
    cases u with
    | nil => simp at hk
    | cons b u =>
      obtain ⟨k, v⟩ := a; obtain ⟨l, w⟩ := b
      simp only [List.map_cons, List.cons.injEq] at hk
      obtain ⟨hlt, hwf⟩ := (Table.wf_cons k v t).1 h
      obtain ⟨rfl, hk⟩ := hk
      refine (Table.wf_cons _ _ _).2 ⟨?_, ih u hk hwf⟩
      intro e he
      have : e.1 ∈ t.map (·.1) := by rw [hk]; exact List.mem_map_of_mem he
      obtain ⟨f, hf, hfe⟩ := List.mem_map.1 this
      rw [← hfe]; exact hlt f hf

theorem Table.keys_modify (t : Table α) (i : Nat) (f : α → α) :
    t.map (·.1) = (Table.modify t i f).map (·.1) := by
  simp only [Table.modify, List.map_map]
  congr 1; funext e; simp only [Function.comp]; split <;> rfl

theorem Table.wf_modify (t : Table α) (i : Nat) (f : α → α) (h : Table.wf t = true) :
    Table.wf (Table.modify t i f) = true :=
  Table.wf_of_keys t _ (Table.keys_modify t i f) h

theorem Table.wf_map_snd {β : Type} (t : Table α) (f : Nat × α → β) (h : Table.wf t = true) :
    Table.wf (t.map (fun e => (e.1, f e))) = true :=
  Table.wf_of_keys t _ (by simp) h

theorem Table.wf_store [DecidableEq α] (t : Table α) (i : Nat) (v d : α) (h : Table.wf t = true) :
    Table.wf (Table.store t i v d) = true := by
  unfold Table.store; split
  · exact Table.wf_del t i h
  · exact Table.wf_put t i v h

/-- A write never lists the default. -/
theorem Table.store_no_default [DecidableEq α] (t : Table α) (i : Nat) (v d : α) (h : ∀ e ∈ t, e.2 ≠ d) :
    ∀ e ∈ Table.store t i v d, e.2 ≠ d := by
  intro e he
  unfold Table.store at he
  split at he
  · exact h e (List.mem_filter.1 he).1
  · rename_i hv
    rcases Table.mem_put t i v e he with rfl | he
    · exact hv
    · exact h e he

end Sys2Proof.Machine
end

