-- ==== Sys2Proof/WellFormed.lean ====
section
/-! DEFINITION. Which commands the wire can carry: the operands that a field of the spec's own layout bounds
(11, section 11.9). Every meaning is total, so an ill-formed command still has one. -/

namespace Sys2Proof

/-- The digit count of a SETUP body is one byte, and its body fits in a frame (11, section 11.9). -/
def wfDigits (digits : List Byte) : Bool := digits.length ≤ 255

/-- A frame's body is at most 1,024 bytes (R190). -/
def wfBody (body : List Byte) : Bool := body.length ≤ Config.maxBody

/-- Bytes that complete a frame: at least its two check bytes and at most a whole frame (R190). -/
def wfFrameBytes (bytes : List Byte) : Bool := 2 ≤ bytes.length && bytes.length ≤ 9 + Config.maxBody

/-- A bad length is above 1,024 (R190). -/
def wfBadLength (n : BitVec 16) : Bool := Config.maxBody < n.toNat

/-- Well-formed commands. -/
def WellFormed : Instr → Bool
  | .setup _ _ _ _ _ _ digits => wfDigits digits
  | .reject f => wfBody f.body
  | .frameReceived bytes => wfFrameBytes bytes
  | .badLength n => wfBadLength n
  | .proceed .. | .answer .. | .crankback .. | .release .. | .readContext .. | .prefixWrite ..
  | .prefixRead .. | .prefixDelete .. | .bankCopy .. | .bankSwap .. | .groupDefine .. | .groupService ..
  | .groupRead .. | .circuitBlock .. | .circuitUnblock .. | .readGroupCounters .. | .routeListWrite ..
  | .routeListRead .. | .gapAdd .. | .gapRemove .. | .gapRead .. | .setTime .. | .holidayWrite ..
  | .bandScheduleWrite .. | .carrierWrite .. | .carrierRead .. | .readRecords .. | .discardRecords ..
  | .hold .. | .forceHold .. | .resume .. | .step .. | .trial .. | .faultAck .. | .heldMeasurement ..
  | .status .. | .noticeEnable .. | .noticeDisable .. | .deviceSettings .. | .warmRestart ..
  | .coldRestart .. | .resetAsserted | .resetReleased | .interByteTimeout | .messageSent | .syncPairFound
  | .monotonicAdvance | .guardExpiry .. | .attemptTimerExpiry .. | .holdWaitExpiry ..
  | .measurementWindowExpiry .. | .destinationWindowExpiry | .gapDeadline .. | .gapLifetimeExpiry .. => true

end Sys2Proof
end

