-- ==== Sys2Proof/Tests/Slice0.lean ====
section
/-! SUPPORT. Tests of the model on small states: ill-formed commands, the spec's worked examples, and for each statement
with hypotheses a state and operands that meet them. Expected figures are the spec's, or worked out by hand from its
rules; each test names its source. -/

namespace Sys2Proof.Tests

open Sys2Proof Sys2Proof.Machine

/-! ### Ill-formed commands, one for each check (11, section 11.9; R190) -/

theorem test_wf_setup_digits : WellFormed (.setup 1 0 0 0 1 0 (List.replicate 256 0)) = false := by decide +kernel
theorem test_wf_reject_body : WellFormed (.reject ⟨0, 1, List.replicate 1025 0⟩) = false := by decide +kernel
theorem test_wf_frame_short : WellFormed (.frameReceived [0]) = false := by decide
theorem test_wf_frame_long : WellFormed (.frameReceived (List.replicate 1034 0)) = false := by decide +kernel
theorem test_wf_bad_length : WellFormed (.badLength 1024) = false := by decide
theorem test_wf_good : WellFormed (.setup 1 0 0 0 1 0 [1, 2]) && WellFormed (.badLength 1025) = true := by decide

/-- No row of the table gives bits (log 23). -/
theorem test_no_word_spells_a_command : decodeTableWord 8 0 = none := rfl

/-! ### Worked examples of the spec -/

/-- 1 January 2024 lies 8,766 days after 1 January 2000 and is a Monday (R141). -/
theorem test_weekday : dayNumber ⟨2024, 1, 1⟩ = 8766 ∧ weekdayOf ⟨2024, 1, 1⟩ = .monday := by decide

/-- The WEEKDAY write of R146 and its list as held. -/
theorem test_bands_sorted :
    adoptBands [⟨1140, 1⟩, ⟨480, 0⟩, ⟨1380, 2⟩] = [⟨0, 0⟩, ⟨1140, 1⟩, ⟨1380, 2⟩] := by decide

/-- An addition past 31 December 2099 is UNSET, and one past midnight carries into the next date (R141). -/
theorem test_add_ds : addDs (some ⟨⟨2099, 12, 31⟩, 863999⟩) 1 = none ∧
    addDs (some ⟨⟨2024, 2, 28⟩, 863999⟩) 1 = some ⟨⟨2024, 2, 29⟩, 0⟩ := by decide +kernel

/-- The check value of the CRC with generator 1021h and start FFFFh, over the digits 1 to 9 in ASCII (PRESUMED: the
family's well-known check value). -/
theorem test_crc : crcOf [0x31, 0x32, 0x33, 0x34, 0x35, 0x36, 0x37, 0x38, 0x39] = 0x29B1 := by decide +kernel

/-- D = 0 and D = 10 give S = 1, D = 11 gives 2, 24 hours give 86,400 (R155). -/
theorem test_conversation_seconds : conversationSeconds 0 = 1 ∧ conversationSeconds 10 = 1 ∧
    conversationSeconds 11 = 2 ∧ conversationSeconds 864000 = 86400 := by decide

/-- The schedule of the examples of 09, sections 9.5 and 9.6. -/
def examplePlan : TimeBase :=
  { count := 0, wall := none, weekendMask := [.saturday, .sunday], holidays := [⟨2031, 1, 1⟩],
    weekdayBands := [⟨0, 0⟩, ⟨1140, 1⟩, ⟨1380, 2⟩], weekendBands := [⟨0, 2⟩, ⟨480, 1⟩], holidayBands := [⟨0, 3⟩] }

/-- The band split of 09, section 9.5: answered at 18:59:41.3 on 13 March 2031. -/
theorem test_split_at_evening :
    bandSplit examplePlan (some ⟨⟨2031, 3, 13⟩, 683813⟩) 147 = [⟨.weekday, 0, 19⟩, ⟨.weekday, 1, 128⟩] := by
  decide +kernel

/-- Both sides of 09, section 9.5. -/
theorem test_price_at_evening :
    priceSide false ⟨1500, 60, 6, ⟨⟨2400, 1200, 0, 0⟩, ⟨0, 0, 0, 0⟩, ⟨0, 0, 0, 0⟩⟩⟩ 60 6 25 9
      [⟨.weekday, 0, 19⟩, ⟨.weekday, 1, 128⟩] (.weekday, 1) 147 = ⟨false, 150, 5725, 9⟩ ∧
    priceSide false ⟨500, 30, 1, ⟨⟨3000, 1800, 0, 0⟩, ⟨0, 0, 0, 0⟩, ⟨0, 0, 0, 0⟩⟩⟩ 30 1 0 4
      [⟨.weekday, 0, 19⟩, ⟨.weekday, 1, 128⟩] (.weekday, 1) 147 = ⟨false, 147, 5290, 4⟩ := by decide

/-- The estimate of 09, section 9.5: 3,000 pu at position 2. -/
theorem test_estimate :
    payableEstimate ⟨false, 9, Tariff.zero, false,
      ⟨1500, 60, 6, ⟨⟨2400, 1200, 0, 0⟩, ⟨0, 0, 0, 0⟩, ⟨0, 0, 0, 0⟩⟩⟩, 25⟩ 2 (.weekday, 0) = 3000 := by decide

/-- The mirrored receivable side of 09, section 9.6, into a holiday. -/
theorem test_split_into_holiday :
    bandSplit examplePlan (some ⟨⟨2030, 12, 31⟩, 863900⟩) 30 = [⟨.weekday, 2, 10⟩, ⟨.holiday, 3, 20⟩] ∧
    (receivableSide
      ⟨false, 0, ⟨0, 0, 1, ⟨⟨0, 0, 900, 0⟩, ⟨0, 0, 0, 0⟩, ⟨0, 0, 0, 600⟩⟩⟩, true, Tariff.zero, 0⟩
      (some ⟨false, 0, Tariff.zero, false,
        ⟨200, 60, 30, ⟨⟨0, 0, 700, 0⟩, ⟨0, 0, 0, 0⟩, ⟨0, 0, 0, 500⟩⟩⟩, 20⟩)
      [⟨.weekday, 2, 10⟩, ⟨.holiday, 3, 20⟩] (.holiday, 3) 30) = ⟨false, 60, 650, 0⟩ := by decide +kernel

/-- Windows 2, 4 and 6 of 06, section 6.8: the level rises to 2, stays at 3, falls to 2. -/
theorem test_levels : adoptLevel 2 3 0 [3, 2] = 2 ∧ adoptLevel 2 3 3 [1, 3, 3, 2] = 3 ∧
    adoptLevel 2 3 3 [0, 1, 1, 3, 3, 2] = 2 := by decide

/-- The bank of 02, section 2.6. -/
def exampleBank : Table NumberEntry :=
  [(10, ⟨.any, .any, [0], .route 5, 0, 10, 300, 0⟩), (11, ⟨.any, .is .national, [0, 4, 4], .route 12, 0, 10, 300, 0⟩),
    (12, ⟨.is 12, .any, [0, 4, 4], .route 14, 0, 10, 300, 0⟩), (13, ⟨.any, .any, [0, 4, 4, 9], .route 20, 0, 10, 300, 0⟩),
    (14, ⟨.any, .is .international, [0, 0], .bar, 0, 10, 300, 0⟩),
    (15, ⟨.is 40, .is .international, [0, 0], .route 30, 0, 10, 300, 0⟩)]

/-- Rows 1, 2, 4 and 7 of the table of 02, section 2.6. -/
theorem test_winners :
    (winner exampleBank 12 .national [0, 4, 4, 1]).map (·.1) = some 12 ∧
    (winner exampleBank 7 .national [0, 4, 4, 9]).map (·.1) = some 13 ∧
    (winner exampleBank 40 .international [0, 0, 3]).map (·.1) = some 15 ∧
    winner exampleBank 7 .national [1, 2, 3, 4] = none := by decide +kernel

/-! ### A small state -/

/-- A call on incoming circuit `k` of group 1. -/
def call (k : Nat) (st : CallState) (attempts : List Attempt) : Context :=
  { callId := 7, prio := 1, inGroup := 1, inCircuit := k, inCarrier := 2, numClass := .national, digits := [0, 4, 4],
    matched := some (.a, 0), routeList := some 0, attempts := attempts, state := st, attemptDeadline := none,
    holdDeadline := none, answerCount := none, answerWall := none, timeStep := false, restart := false,
    pendingRecord := none }

/-- A ROUTED call on circuit 1 of group 0; its attempt timer is due. -/
def routedCall : Context :=
  { call 0 .routed [⟨0, 0, 1, 0, .inProgress⟩] with attemptDeadline := some 1000 }

/-- An ANSWERED call on circuit 2 of group 0. -/
def answeredCall : Context :=
  { call 1 .answered [⟨0, 0, 2, 0, .proceeded⟩] with answerCount := some 900, answerWall := some none }

/-- A QUEUED call; its hold-wait is due. -/
def queuedCall : Context := { call 2 .queued [] with holdDeadline := some 1000 }

/-- A record of the answered call. -/
def body : RecordBody :=
  { callId := 7, inGroup := 1, inCarrier := 2, outGroup := 0, outCarrier := 0, position := 0, attempts := 1,
    answerWall := none, duration := 100, seconds := 10, split := [⟨.weekday, 0, 10⟩], extraClass := .weekday,
    extraBand := 0, receivable := ⟨false, 10, 0, 0⟩, payable := ⟨false, 10, 0, 0⟩,
    flags := ⟨false, true, false, false, false⟩ }

/-- A CLOSING call with its record. -/
def closingCall : Context := { call 5 .closing [⟨0, 0, 3, 0, .proceeded⟩] with pendingRecord := some body }

/-- A group record. -/
def groupRecord (dir : Direction) (par : Parity) : GroupRecord :=
  { carrier := 2, direction := dir, parity := par, hunting := .ascending, guard := 20, service := .inService,
    window := 60, occupancy := ⟨90, 95, 98⟩, overflow := ⟨20, 100, 300⟩, rise := 2, fall := 3,
    reservations := ⟨0, 2, 4, 8⟩, report := false }

/-- A group about to end its window. -/
def group (dir : Direction) (par : Parity) (circuits : List Circuit) : CircuitGroup :=
  { record := groupRecord dir par, circuits := circuits, idleList := idleNumbers circuits, rotate := 0,
    counters := Counters.zero, meas := { Measurement.fresh with elapsed := 599 } }

/-- Group 0: an idle circuit, the routed call's, the answered call's, one in GUARD due now, one BLOCKED. -/
def bothway : CircuitGroup :=
  group .bothway .even [.idle 0, .out 9 950 false, .out 16 900 true, .guard 1000, .blocked]

/-- Group 1: the incoming circuits of the calls, and an idle one. -/
def incoming : CircuitGroup :=
  group .incoming .none [.inc 9 940 false, .inc 16 890 false, .inc 24 960 false, .idle 0]

/-- An entry of the number banks. -/
def entry : NumberEntry := ⟨.any, .any, [0], .route 0, 0, 10, 300, 3⟩

/-- A CLOSED gap whose deadlines are due. -/
def gap : GapEntry := ⟨[4], 30, .automatic, some 1000, some 970, some 1000, 0, none, 5⟩

/-- A small state at count 1,000: calls 1 (reference 9, ROUTED), 2 (16, ANSWERED), 3 (24, QUEUED) and 4 (32, CLOSING). -/
def bench : State where
  link :=
    { rx := .hunting false, inBuf := [], outQueue := [], reserved := 0, checkErrors := 4294967295, overruns := 0,
      rejects := 0, noticesLost := 0, enabled := [.gap, .engine], conditions := [.recordsPending, .timeUnset],
      resetLine := false, txd := [] }
  ctx :=
    { contexts := [(1, routedCall), (2, answeredCall), (3, queuedCall), (4, closingCall)], generations := [(1, 1)],
      freeList := [0, 5], closing := [4], reports := [], ordinaryReserve := 1, bulkReserve := 1 }
  num := { bankA := [(0, entry)], bankB := [], active := .a, destLength := 10, destRemaining := 0 }
  groups := [(0, bothway), (1, incoming)]
  sel := { routeLists := [(0, ⟨.sequential, 65535, [0]⟩)], crankbackLimit := 3, attemptTimeout := 100 }
  gap := { slots := [(0, gap)], autoList := [0] }
  time :=
    { count := 1000, wall := none, weekendMask := [.saturday, .sunday], holidays := [], weekdayBands := [⟨0, 0⟩],
      weekendBands := [⟨0, 0⟩], holidayBands := [⟨0, 0⟩] }
  rate := { carriers := [], queue := [⟨5, body⟩], seq := 6, watermark := 1536 }
  eng :=
    { state := .running, reason := .none, stepped := none, held := [], fault := none, faultCount := 0,
      heldMeasurement := false, holdWait := 20 }
  pending := []

/-- The same state with the engine HELD and the queued call waiting. -/
def held : State :=
  { bench with eng := { bench.eng with state := .held, reason := .host, held := [⟨24, 1, 980, 1000⟩] } }

/-- The fields of a SETUP on circuit 3 of group 1. -/
def setup3 (tag : Tag) (prio : Byte) (circuit : BitVec 16) (digits : List Byte) : Frame :=
  setupFrame tag 7 1 circuit 1 prio digits

/-- Reply of an outcome: the last message of the output queue. -/
def lastReply : Out → Option Message
  | .next t => t.link.outQueue.getLast?
  | _ => none

/-! ### Single steps -/

/-- A SETUP on the idle incoming circuit is routed on the one idle circuit of group 0 (R7, R8, R78). -/
theorem test_setup_routes :
    lastReply (exec (.setup 1 7 1 3 1 0 [0, 4]) bench) = some (.reply 1 (.route 1 0 0 0 1)) := by decide +kernel

/-- A SETUP of class 1 whose number a CLOSED gap covers is GAPPED, one of class 0 is exempt (R127). -/
theorem test_setup_gapped :
    lastReply (exec (.setup 1 7 1 3 1 1 [0])
      { bench with gap := { bench.gap with slots := [(0, { gap with digits := [0] })] } }) =
      some (.reply 1 (.refuse .gapped .none)) := by decide +kernel

/-- The only other candidate is tried already, so a crankback is refused ROUTES EXHAUSTED and frees the call (R90). -/
theorem test_crankback_exhausts :
    lastReply (exec (.crankback 1 9 0 1 (some .congestion)) bench) =
      some (.reply 1 (.refuse .routesExhausted .none)) := by decide +kernel

/-- A release puts the circuit in GUARD for its interval, and a block-pending one in BLOCKED (R49). -/
theorem test_release :
    (match exec (.release 1 9) bench with
      | .next t => (groupAt t 0).map (fun gr => gr.circuits[1]?)
      | _ => none) = some (some (.guard 1020)) ∧
    (match exec (.release 1 16) bench with
      | .next t => (groupAt t 0).map (fun gr => gr.circuits[2]?)
      | _ => none) = some (some .blocked) := by decide +kernel

/-- Resuming with one held call and no idle circuit left for it ends in CALL FAILED (R179). -/
theorem test_resume :
    (match exec (.resume 1) held with
      | .next t => (t.eng.state, t.eng.held.length, (contextAt t 3).map (·.state))
      | _ => (.held, 9, none)) = (.running, 0, some .routed) := by decide +kernel

/-- The tables of the small state stand in their canonical form. -/
theorem test_bench_canonical : TablesCanonical bench := by unfold TablesCanonical; decide +kernel

/-- A ROUTE reply to the SETUP of tag 5 on the line: reference 1, group 2, circuit 300, position 0, attempt 1 (11, section
11.9, field by field; the CRC is the part's own). -/
theorem test_route_on_the_line :
    (Message.frame (.reply 5 (.route 1 2 300 0 1))).map (fun f => (frameBytes f).take 15) =
      some [0xD2, 0x6C, 0, 8, 129, 0, 5, 0, 1, 0, 2, 1, 44, 0, 1] := by decide +kernel

/-- The bytes of a SETUP frame, sync pair first, end in the input buffer as that frame (R190, R191). -/
theorem test_frame_received :
    (match execFrameReceived (frameBytes (setup3 7 1 3 [0, 4])) bench with
      | .next t => t.link.inBuf
      | _ => []) = [setup3 7 1 3 [0, 4]] := by decide +kernel

/-- Flags LONG and PREMIUM, HOLIDAY band 3, an UNSET answer (11, section 11.9, offsets 16 to 22, 31 and 32). -/
theorem test_record_fields : flagByte ⟨true, false, false, false, true⟩ = [17] ∧ bandByte .holiday 3 = [0x23] ∧
    wallBytes none = [255, 0, 0, 0, 0, 0, 0] ∧ wallBytes (some ⟨⟨2030, 12, 31⟩, 863999⟩) = [30, 12, 31, 0, 13, 46, 255] ∧
    recordBytes ⟨5, body⟩ = 60 := by decide

/-! ### Witnesses: states and operands that meet the hypotheses of the statements, clause by clause -/

/-- Every typed request can be taken in the small state and in its HELD form; WARM RESTART with two places. -/
theorem witness_requests_are_ready :
    (requestKinds.all (fun k => k == 84 || ready k 1 bench && ready k 1 held)) = true ∧
    canTake (isRequest 84 1) 2 bench = true := by decide +kernel

theorem witness_TakenRequestsYieldOneReply :
    requestOf (.hold 1) = some (64, 1) ∧ isCold (.hold 1) = false ∧ bench.link.reserved = 0 ∧
    canTake (isRequest 64 1) (placesNeeded 64) bench = true ∧ (∃ t, exec (.hold 1) bench = .next t) ∧
    canTake (· == setup3 1 1 3 [0]) 1 { bench with link := { bench.link with inBuf := [setup3 1 1 3 [0]] } } = true ∧
    frameFault ⟨255, 1, []⟩ = some .unknownKind ∧
    canTake (· == ⟨255, 1, []⟩) (placesNeeded 255) bench = true := by
  refine ⟨rfl, rfl, rfl, ?_, ⟨_, rfl⟩, ?_⟩ <;> decide +kernel

theorem witness_RejectedFramesReachNoBlock :
    frameFault ⟨64, 0, []⟩ = some .tagZero ∧ frameFault ⟨1, 1, [0]⟩ = some .badBody ∧
    canTake (· == ⟨1, 1, [0]⟩) (placesNeeded 1) bench = true ∧ requestOf (.warmRestart 0) = some (84, 0) ∧
    canTake (isRequest 84 0) (placesNeeded 84) bench = true := by decide +kernel

/-- The RESET line asserted; no place free, for a request, a SETUP, a rejected frame and a WARM RESTART; a frame that waits
already, and a full buffer; a frame that passes the three tests. -/
theorem witness_UntakenRequestsWait :
    ({ bench with link := { bench.link with resetLine := true } } : State).link.resetLine = true ∧
    (let s := { bench with link := { bench.link with reserved := 512 } }
     requestOf (.hold 1) = some (64, 1) ∧ canTake (isRequest 64 1) (placesNeeded 64) s = false ∧
     canTake (· == setup3 1 1 3 [0]) (placesNeeded 1) s = false ∧ frameFault ⟨255, 1, []⟩ ≠ none ∧
     canTake (· == ⟨255, 1, []⟩) (placesNeeded 255) s = false) ∧
    canTake (isRequest 84 1) (placesNeeded 84)
      { bench with link := { bench.link with reserved := 511 } } = false ∧
    (let s := { bench with link := { bench.link with inBuf := [⟨65, 1, []⟩, ⟨64, 1, []⟩] } }
     s.link.inBuf.any (isRequest 64 1) = true ∧ canTake (isRequest 64 1) (placesNeeded 64) s = false) ∧
    (let s := { bench with link := { bench.link with inBuf := List.replicate 64 ⟨65, 1, []⟩ } }
     canTake (isRequest 64 1) (placesNeeded 64) s = false ∧ s.link.inBuf.any (isRequest 64 1) = false) ∧
    frameFault ⟨64, 1, []⟩ = none := by decide +kernel

/-- A request that finds no place waits in the buffer, and the same command is answered once a place is free (R192). -/
theorem test_waiting_request_is_taken :
    (match exec (.hold 1) { bench with link := { bench.link with reserved := 512 } } with
      | .next t =>
        (t.link.inBuf.map (fun f => (f.kind, f.tag)),
          lastReply (exec (.hold 1) { t with link := { t.link with reserved := 0 } }))
      | _ => ([], none)) =
      ([(64, 1)], some (.reply 1 (.done (.engine .holding .host 1)))) := by decide +kernel

/-- A byte at the tenth decisecond finds the partial frame discarded and counted; one before it joins the frame (R190). -/
theorem test_late_byte :
    (let s := { bench with link := { bench.link with rx := .assembling [0] 991, checkErrors := 0 } }
     (match exec (.frameReceived [0]) s with | .next t => (t.link.rx, t.link.checkErrors) | _ => (.hunting true, 9)) =
        (.assembling [0, 0] 1000, 0) ∧
     (match exec (.frameReceived [0xD2]) { s with time := { s.time with count := 1001 } } with
        | .next t => (t.link.rx, t.link.checkErrors) | _ => (.hunting false, 9)) = (.hunting true, 1)) := by
  decide +kernel

/-- Frames of no body and of a good length; the least bad length; a pair as length; the ninth and the tenth
decisecond. -/
theorem witness_ReceiverTurnsBytesIntoFrames :
    ([] : List Byte) ++ [0, 0, 64, 0, 1, 1, 2] = 0 :: 0 :: 64 :: 0 :: 1 :: (([] : List Byte) ++ [1, 2]) ∧
    ([] : List Byte).length = (word16 0 0).toNat ∧ 1024 < (1025 : BitVec 16).toNat ∧
    1024 < (0xD26C : BitVec 16).toNat ∧
    (let s := { bench with link := { bench.link with rx := .assembling [0] 990 } }
     s.link.rx = .assembling [0] 990 ∧ 990 + 10 ≤ s.time.count ∧ s.link.resetLine = false) ∧
    bench.time.count < 991 + 10 ∧ ([0, 0, 64, 0, 1, 1, 2] : List Byte) ≠ [] ∧
    crcOf [0, 0, 64, 0, 1] ≠ word16 1 2 := by decide +kernel

theorem witness_SentMessagesFreeTheirPlace :
    (let s := { bench with
      link := { bench.link with outQueue := [.report (.callFailed 9 .congested)] },
      ctx := { bench.ctx with reports := [(7, .callFailed 56 .congested)] } }
     s.link.resetLine = false ∧ s.link.outQueue = .report (.callFailed 9 .congested) :: [] ∧
     s.link.outQueue.length + s.link.reserved ≤ 512 ∧ contextAt s 7 = none ∧ bench.ctx.reports = []) := by
  decide +kernel

theorem witness_ReadContextShowsTheContext :
    contextOfRef bench 9 = some (1, routedCall) ∧ contextOfRef bench 32 = some (4, closingCall) ∧
    contextOfRef bench 8 = none := by decide +kernel

/-- NEXT finds the entry at its own index, and nothing above it. -/
theorem witness_PrefixReadShowsAnEntry :
    Table.wf (bankOf bench.num .a) = true ∧ Table.find (bankOf bench.num .a) 0 = some entry ∧
    entry.enabled = true ∧ (bankOf bench.num .a).all (fun e => e.1 < 1) = true := by decide

/-- A group, its last circuit, and one past it; a list; a gap by digits and by slot, digits and slots without one, and bad
ones. -/
theorem witness_GroupsListsAndGapsAreRead :
    groupAt bench 0 = some bothway ∧ bothway.circuits.length = 5 ∧ groupAt bench 1023 = none ∧
    readRangeGood (some (511, 64)) = true ∧
    Table.find bench.sel.routeLists 0 = some ⟨.sequential, 65535, [0]⟩ ∧ digitsGood 1 16 [4] = true ∧
    digitsGood 1 16 [] = false ∧ (gapOfDigits bench [4]).toList = [(0, gap)] ∧ (gapOfDigits bench [5]).toList = [] ∧
    (bench.gap.slots.filter (fun e => 0 ≤ e.1)).take 8 = [(0, gap)] ∧
    (bench.gap.slots.filter (fun e => 63 ≤ e.1)).take 8 = [] := by decide +kernel

theorem witness_CarrierReadShowsTheAgreement : ready 52 1 bench = true := by decide +kernel

theorem witness_StatusShowsAndClears : ready 80 1 bench = true := by decide +kernel

theorem witness_TrialReportsWithoutChanging :
    held.eng.state = .held ∧ bench.eng.state ≠ .held ∧ digitsGood 1 20 [0, 4] = true ∧
    digitsGood 1 20 [] = false ∧ analyse held 127 .national [0, 4] = .routed .a 0 0 ∧
    analyse held 127 .national [9] = .noMatch ∧
    verdictOf held 65535 2 3 0 0 = .admissible 1 0 0 0 0 ∧ groupAt held 0 = some bothway := by decide +kernel

/-- A write at the entry's own index and at another one with the same key; a delete of an enabled and a disabled one. -/
theorem witness_EntriesAreWrittenAndDeleted :
    digitsGood 0 16 [0] = true ∧ (∀ j x, (j, x) ∈ bankOf bench.num .a → x.enabled = true →
      sameKey x { entry with count := 0 } = true → j = 0) ∧
    (∃ j x, (j, x) ∈ bankOf bench.num .a ∧ j ≠ 8191 ∧ x.enabled = true ∧
      sameKey x { entry with count := 0 } = true) ∧
    (entryAt bench .a 0).enabled = true ∧ (entryAt bench .a 8191).enabled = false ∧
    Table.wf (bankOf bench.num .a) = true := by
  refine ⟨by decide, ?_, ⟨0, entry, by decide, by decide, by decide, by decide⟩, by decide, by decide, by decide⟩
  intro j x h _ _
  simp only [bankOf, bench, List.mem_singleton, Prod.mk.injEq] at h
  exact h.1

theorem witness_BanksAreCopiedAndSwapped :
    Table.wf (bankOf bench.num bench.num.active) = true ∧
    enabledCount (bankOf bench.num bench.num.active.other) = 0 := by decide

/-- A new group; a group out of service without busy circuits; the one in use; a total of 16,384 and one above it. -/
theorem witness_GroupDefineBuildsOrRefuses :
    (∀ o, groupAt bench 1023 = some o → o.record.service = .outOfService ∧ o.busyCount = 0) ∧
    totalAfter bench 1023 512 ≤ 16384 ∧
    (let s := { bench with groups := [(0, { group .bothway .odd [.blocked, .idle 3] with
        record := { groupRecord .bothway .odd with service := .outOfService } })] }
     ∃ o, groupAt s 0 = some o ∧ o.record.service = .outOfService ∧ o.busyCount = 0) ∧
    (∃ o, groupAt bench 0 = some o ∧ (o.record.service ≠ .outOfService ∨ 0 < o.busyCount)) ∧
    (let s := { bench with
      groups := (List.range 32).map (fun g => (g, group .outgoing .none (List.replicate 512 .blocked))) }
     groupAt s 32 = none ∧ totalAfter s 32 0 ≤ 16384 ∧ 16384 < totalAfter s 32 1) := by
  refine ⟨fun o h => (nomatch (show (none : Option CircuitGroup) = some o from h)), by decide +kernel,
    ⟨_, rfl, by decide, by decide⟩, ⟨_, rfl, by decide⟩, by decide +kernel⟩

theorem witness_GroupServiceSetsTheState :
    groupAt bench 0 = some bothway ∧ 0 < bothway.busyCount ∧ groupAt bench 1023 = none ∧
    (group .outgoing .none [.idle 0]).busyCount = 0 := by decide +kernel

/-- The five states of a circuit. -/
theorem witness_CircuitsAreBlockedAndUnblocked :
    groupAt bench 0 = some bothway ∧ bothway.circuits[0]? = some (.idle 0) ∧
    bothway.circuits[1]? = some (.out 9 950 false) ∧ bothway.circuits[3]? = some (.guard 1000) ∧
    bothway.circuits[4]? = some .blocked ∧ groupAt bench 1 = some incoming ∧
    incoming.circuits[0]? = some (.inc 9 940 false) ∧ bothway.circuits.length ≤ 5 := by decide +kernel

theorem witness_ReadGroupCountersClearsTheMarks :
    groupAt bench 0 = some bothway ∧ groupAt bench 1023 = none := by decide +kernel

theorem witness_RouteListWriteReplacesTheList :
    [0, 1023].length ≤ 8 ∧ (∀ g ∈ [0, 1023], g < 1024) ∧ [0, 1023].Nodup ∧ ¬ [5, 5].Nodup ∧
    8 < (List.range 9).length := by decide

/-- Slot 1 is the lowest free one; tables of 64 entries have none, with an AUTOMATIC entry and without. -/
theorem witness_GapsAreAddedAndRemoved :
    gapOfDigits bench [5] = none ∧ Table.find bench.gap.slots 1 = none ∧
    (∀ j, j < 1 → Table.find bench.gap.slots j ≠ none) ∧ gapOfDigits bench [4] = some (0, gap) ∧
    (let l := (List.range 64).map (fun i => (i, { gap with digits := [i] }))
     let s := { bench with gap := ⟨l, []⟩ }
     let r := { bench with gap := ⟨l, [63, 5]⟩ }
     gapOfDigits s [64] = none ∧ (∀ j, j < 64 → Table.find s.gap.slots j ≠ none) ∧ s.gap.autoList = [] ∧
     Table.find r.gap.slots 63 = some { gap with digits := [63] }) ∧
    digitsGood 1 16 [4] = true ∧ digitsGood 1 16 [] = false := by decide +kernel

theorem witness_CarrierWriteReplacesTheAgreement : ready 51 1 bench = true := by decide +kernel

theorem witness_SetTimeSetsTheWallClock :
    validDate ⟨2099, 12, 31⟩ = true ∧ validDate ⟨2023, 2, 29⟩ = false ∧ contextAt bench 2 = some answeredCall := by
  decide +kernel

theorem witness_CalendarAndBandsAreWritten :
    (∀ d ∈ [(⟨2031, 1, 1⟩ : Date), ⟨2030, 12, 25⟩], validDate d = true) ∧
    [(⟨2031, 1, 1⟩ : Date), ⟨2030, 12, 25⟩].Nodup ∧
    (∀ e ∈ [(⟨1439, 3⟩ : BandEntry), ⟨0, 0⟩], e.start ≤ 1439 ∧ e.band ≤ 3) ∧
    (([(⟨1439, 3⟩ : BandEntry), ⟨0, 0⟩]).map (·.start)).Nodup ∧ ¬ [(⟨2031, 1, 1⟩ : Date), ⟨2031, 1, 1⟩].Nodup := by
  decide

/-- The oldest record matched and not matched; one CLOSING call behind it; as many records as held and one more. -/
theorem witness_RecordsAreReadAndDiscarded :
    (∀ r ∈ bench.rate.queue.head?, r.seq = 5) ∧ (∃ r rest, bench.rate.queue = r :: rest ∧ r.seq ≠ 4) ∧
    bench.rate.queue.length = 1 ∧ bench.ctx.closing = [4] ∧ contextAt bench 4 = some closingCall ∧
    closingCall.pendingRecord = some body ∧ (∀ r ∈ bench.rate.queue, r.body.split.length ≤ 8) := by
  refine ⟨by decide, ⟨_, _, rfl, by decide⟩, rfl, rfl, by decide +kernel, rfl, by decide⟩

theorem witness_HoldsStopTheEngine :
    bench.eng.state = .running ∧ bench.link.enabled.contains .engine = true ∧ 66 ≤ bench.link.free ∧
    held.eng.state = .held ∧ ¬ (held.eng.state = .held ∧ held.eng.reason = .forced) ∧
    routedCount bench = 1 := by decide +kernel

/-- One held call, which stands for its own context, with room for its report. -/
theorem witness_ResumeDrainsTheHeldQueue :
    held.eng.state = .held ∧ held.eng.held ≠ [] ∧ bench.eng.state = .running ∧ (held.eng.held.map (·.ref)).Nodup ∧
    contextOfRef held 24 = some (24 / 8, queuedCall) ∧ queuedCall.state = .queued ∧ held.ctx.reports = [] ∧
    held.eng.held.length ≤ 64 ∧ held.eng.held.length + 1 ≤ held.link.free := by decide +kernel

theorem witness_StepReleasesTheFirstEntry :
    held.eng.state = .held ∧ firstServed held.eng.held = some ⟨24, 1, 980, 1000⟩ ∧
    contextOfRef held 24 = some (3, queuedCall) := by decide +kernel

/-- A latched fault, and none. -/
theorem witness_FaultsAreAcknowledgedMeasurementSet :
    bench.eng.fault = none ∧ ∃ f : LatchedFault,
      ({ bench with eng := { bench.eng with fault := some f } } : State).eng.fault = some f :=
  ⟨rfl, ⟨⟨.emptyGroup, .choice 0 0 0, 9⟩, 3⟩, rfl⟩

/-- A class enabled and one not; 65 places free, and 64. -/
theorem witness_NoticeClassesAreSet :
    (none : Named NoticeClass) ∈ [some NoticeClass.gap, none] ∧ NoticeClass.gap ∈ bench.link.enabled ∧
    NoticeClass.fault ∉ bench.link.enabled ∧ 64 < ({ bench.link with reserved := 447 } : Link).free ∧
    ({ bench.link with reserved := 448 } : Link).free = 64 := by decide

theorem witness_DeviceSettingsAdoptsValues : ready 83 1 bench = true := by decide +kernel

theorem witness_ColdRestartResetsEveryBlock : ready 85 1 bench = true := by decide +kernel

/-- Room for exactly the ANSWERED and CLOSING calls, and for one fewer. -/
theorem witness_WarmRestartKeepsTheTables :
    TablesCanonical bench ∧ countState .answered bench + countState .closing bench = 2 ∧
    2 ≤ 2048 - bench.rate.queue.length ∧
    (2048 - (List.replicate 2047 (⟨5, body⟩ : Record)).length < 2) :=
  ⟨test_bench_canonical, by decide +kernel, by decide, by rw [List.length_replicate]; decide⟩

theorem witness_RequestsAboutCallsAreChecked :
    contextOfRef bench 8 = none ∧ contextOfRef bench 9 = some (1, routedCall) ∧
    routedCall.outgoing = some (0, 1) ∧ contextOfRef bench 16 = some (2, answeredCall) ∧
    answeredCall.state = .answered ∧ contextOfRef bench 32 = some (4, closingCall) := by decide +kernel

theorem witness_CallsProceedAndAreAnswered :
    contextOfRef bench 9 = some (1, routedCall) ∧ routedCall.state = .routed ∧ routedCall.outgoing = some (0, 1) := by
  decide +kernel

/-- The matched entry counts while the windows run; with threshold 4 this is the crankback that asks for a gap. -/
theorem witness_CrankbackEndsTheAttempt :
    contextOfRef bench (9 : CallRef).toNat = some (1, routedCall) ∧ routedCall.state = .routed ∧
    routedCall.outgoing = some (0, 1) ∧ groupAt bench 0 = some bothway ∧ routedCall.matched = some (.a, 0) ∧
    entryAt bench .a 0 = entry ∧ entry.enabled = true ∧ windowsRunning bench = true ∧ entry.count < 65535 ∧
    (let e := { entry with threshold := 4 }
     e.threshold ≠ 0 ∧ e.count + 1 = e.threshold) ∧ windowsRunning held = false := by decide +kernel

/-- An ANSWERED call with room for its record and without, a QUEUED one. -/
theorem witness_ReleaseEndsTheCall :
    contextOfRef bench (16 : CallRef).toNat = some (2, answeredCall) ∧ answeredCall.state ≠ .closing ∧
    bench.rate.queue.length < 2048 ∧ contextOfRef held (24 : CallRef).toNat = some (3, queuedCall) ∧
    2048 ≤ (List.replicate 2048 (⟨5, body⟩ : Record)).length :=
  ⟨by decide +kernel, by decide, by decide, by decide +kernel, Nat.le_of_eq List.length_replicate.symm⟩

/-- SETUPs with a bad field; of class 2 and 3 at their reserves; on an undefined group, a circuit IN, a BLOCKED one; and on
the routed call's circuit in a group that controls it. -/
theorem witness_SetupIsRefusedBeforeAllocation :
    canTake (· == setupFrame 1 7 1 3 0 1 [0]) 1 bench = true ∧ canTake (· == setupFrame 1 7 9 3 1 3 [0]) 1 bench = true ∧
    bench.ctx.freeList ≠ [] ∧ bench.ctx.bulkReserve < bench.ctx.freeList.length ∧
    (let s := { bench with ctx := { bench.ctx with ordinaryReserve := 2, bulkReserve := 2 } }
     s.ctx.freeList.length ≤ s.ctx.ordinaryReserve ∧ s.ctx.freeList.length ≤ s.ctx.bulkReserve) ∧
    groupAt bench 9 = none ∧ incoming.circuits[0]? = some (.inc 9 940 false) ∧
    bothway.circuits[4]? = some .blocked ∧
    (let gr := group .bothway .odd bothway.circuits
     gr.record.direction ≠ .outgoing ∧ gr.record.service ≠ .outOfService ∧
     gr.circuits[1]? = some (.out 9 950 false) ∧ gr.record.parity = .odd ∧
     groupAt { bench with groups := [(0, gr)] } 0 = some gr) := by decide +kernel

/-- A SETUP of class 3 on an IDLE circuit, and one on the circuit in GUARD. -/
theorem witness_SetupIsAnalysedAndRouted :
    canTake (· == setupFrame 1 7 1 3 1 3 [0]) 1 bench = true ∧ numberClassOf 1 = some .national ∧
    (∀ d ∈ [(0 : Byte)], d.toNat ≤ 9) ∧ bench.ctx.freeList = 0 :: [5] ∧
    bench.ctx.bulkReserve < bench.ctx.freeList.length ∧ bench.ctx.ordinaryReserve < bench.ctx.freeList.length ∧
    groupAt bench 1 = some incoming ∧ incoming.record.direction ≠ .outgoing ∧
    incoming.record.service ≠ .outOfService ∧ incoming.circuits[3]? = some (.idle 0) ∧
    groupAt bench 0 = some bothway ∧ bothway.circuits[3]? = some (.guard 1000) ∧
    analyse bench 2 .national [0] = .routed .a 0 0 ∧ analyse bench 2 .national [7] = .noMatch ∧
    applyingGap bench [0] = none ∧ applyingGap bench [4, 4] = some (0, gap) ∧ gap.gapDeadline = some 1000 ∧
    ({ gap with gapDeadline := none } : GapEntry).gapDeadline = none := by decide +kernel

/-- A SETUP on the routed call's circuit, which the far end controls; the group may be hunted again. -/
theorem witness_LostGlaresAreRehunted :
    canTake (· == setupFrame 1 7 0 1 1 3 [0]) 1 bench = true ∧ contextAt bench 0 = none ∧
    groupAt bench 0 = some bothway ∧ bothway.circuits[1]? = some (.out 9 950 false) ∧
    contextOfRef bench 9 = some (1, routedCall) ∧ routedCall.state = .routed ∧ bothway.record.parity = .even ∧
    routedCall.newest = some ⟨0, 0, 1, 0, .inProgress⟩ ∧ (routedCall.inGroup, routedCall.inCircuit) ≠ (0, 1) ∧
    rehuntAllowed bothway 0 1 = true ∧ 2 ≤ bench.link.free ∧
    rehuntAllowed { bothway with record := { bothway.record with service := .draining } } 0 1 = false := by
  decide +kernel

/-- The idle list of group 0 is exact, which the last witness and the invariant of idle lists need. -/
theorem witness_idle_list_exact : bothway.IdleListExact := by
  refine ⟨by decide, fun c => ?_⟩
  rcases c with _ | _ | _ | _ | _ | c <;>
    simp [bothway, group, idleNumbers, CircuitGroup.idleAt, Circuit.isIdle, List.range, List.range.loop]

theorem witness_AttemptTimersEndAttempts :
    contextAt bench 1 = some routedCall ∧ routedCall.state = .routed ∧ routedCall.outgoing = some (0, 1) ∧
    routedCall.attemptDeadline = some 1000 ∧ 1000 ≤ bench.time.count ∧ contextAt bench 9 = none := by decide +kernel

/-- Windows that end and windows that run on. -/
theorem witness_AdvancesMoveClocksAndWindows :
    Table.wf bench.groups = true ∧ bench.time.count < 281474976710655 ∧ windowsRunning bench = true ∧
    windowsRunning held = false ∧ groupAt bench 0 = some bothway ∧
    bothway.record.window * 10 ≤ bothway.meas.elapsed + 1 := by decide +kernel

/-- Deadlines reached exactly now, and one decisecond before. -/
theorem witness_DeadlinesAreMet :
    groupAt bench 0 = some bothway ∧ bothway.circuits[3]? = some (.guard 1000) ∧ 1000 ≤ bench.time.count ∧
    Table.find bench.gap.slots 0 = some gap ∧ gap.gapDeadline = some 1000 ∧ gap.lifetime = some 1000 ∧
    bench.link.enabled.contains .gap = true ∧ 64 < bench.link.free ∧ bench.num.destRemaining = 0 ∧
    windowsRunning bench = true ∧ Table.wf bench.num.bankA = true ∧ Table.wf bench.num.bankB = true ∧
    ({ bench with time := { bench.time with count := 999 } } : State).time.count < 1000 := by decide +kernel

/-- The hold-wait is due now; with places free, and with none. -/
theorem witness_HoldWaitsEndInCallFailed :
    (⟨24, 1, 980, 1000⟩ : HeldEntry) ∈ held.eng.held ∧ 24 = refOf held 3 ∧ 1000 ≤ held.time.count ∧
    contextAt held 3 = some queuedCall ∧ held.ctx.reports.any (fun r => r.1 == 3) = false ∧ 0 < held.link.free ∧
    ({ held with link := { held.link with reserved := 512 } } : State).link.free = 0 := by decide +kernel

/-- A rise, a fall and neither, as in windows 2, 6 and 9 of 06, section 6.8. -/
theorem witness_AdoptedLevelsRiseAndFall :
    (∀ x ∈ [3, 2], x ≤ 3) ∧ (∀ x ∈ [3, 2].take 2, 0 < x) ∧ (∃ x ∈ [0, 1, 1].take 2, x ≤ 3) ∧
    (∀ x ∈ [0, 1, 1].take 3, x < 3) ∧ [2].length < 2 ∧ (∃ x ∈ [2, 0, 0].take 3, 0 ≤ x) := by decide

theorem witness_TheWinnerIsTheMostSpecific :
    winner exampleBank 12 .national [0, 4, 4, 1] =
      some (12, ⟨.is 12, .any, [0, 4, 4], .route 14, 0, 10, 300, 0⟩) ∧
    applyingGap bench [4, 7] = some (0, gap) ∧ applyingGap bench [7] = none := by decide +kernel

/-- A full candidate before two admissible ones, the cheaper behind; a group with one IDLE circuit. -/
theorem witness_PoliciesChooseAndGroupsAreHunted :
    (∀ c ∈ [(⟨0, 4, .noCapacity 0 0 0⟩ : Candidate), ⟨1, 5, .admissible 3 0 0 90 0⟩, ⟨2, 6, .admissible 3 0 0 80 0⟩],
      c.isFault = false) ∧
    (⟨0, 4, .noCapacity 0 0 0⟩ : Candidate).isAdmissible = false ∧
    (⟨1, 5, .admissible 3 0 0 90 0⟩ : Candidate).isAdmissible = true ∧
    (⟨2, 6, .admissible 3 0 0 80 0⟩ : Candidate).estimate < (⟨1, 5, .admissible 3 0 0 90 0⟩ : Candidate).estimate ∧
    groupAt bench 0 = some bothway ∧ bothway.idleAt 0 = true ∧
    (∀ c, c < 3 → (group .incoming .none [.blocked, .guard 9]).idleAt c = false) := by decide +kernel

theorem witness_CallsAreTimedAndSplitByBand :
    answeredCall.answerCount = some 900 ∧ 900 ≤ bench.time.count := by decide

/-- The greatest figures of R160. -/
theorem witness_ComputedSidesAreBounded :
    (([⟨.weekday, 0, 86400⟩] : List SplitEntry).map (·.seconds)).sum = 86400 ∧
    (let r : BandRates := ⟨1000000, 1000000, 1000000, 1000000⟩
     (Tariff.mk 10000000 600 60 ⟨r, r, r⟩).fee ≤ 10000000 ∧
     priceSide false ⟨10000000, 600, 60, ⟨r, r, r⟩⟩ 59 60 100 0 [⟨.weekday, 0, 86400⟩] (.weekday, 0) 86400 =
      ⟨false, 86459, 2891966667, 0⟩) := by decide

theorem witness_SelectorAndGroupsChangeOnlyByTheirCommands :
    (∀ tag x, Instr.hold 1 ≠ .bankSwap tag x) ∧ isCold (.hold 1) = false ∧ groupAt bench 0 ≠ none ∧
    groupAt bench 9 = none ∧ ∃ t, exec (.hold 1) bench = .next t :=
  ⟨fun _ _ h => (nomatch h), rfl, by decide +kernel, by decide +kernel, _, rfl⟩

/-! ### A state that meets every property that steps keep -/

/-- One group and one free context, the engine HELD, and HOLD waiting. -/
def tidy : State :=
  { bench with
    link := { bench.link with conditions := [.timeUnset, .engineNotRunning] },
    ctx := { bench.ctx with contexts := [], generations := [], freeList := [0, 1], closing := [] },
    groups := [(0, group .bothway .even [.idle 0, .guard 1000, .blocked])],
    eng := { bench.eng with state := .held, reason := .host }, pending := [.hold 1] }

theorem witness_steps_answer_next : ∃ t, step tidy = .next t := ⟨_, rfl⟩

theorem witness_TablesStayCanonical : TablesCanonical tidy := by unfold TablesCanonical; decide +kernel

theorem witness_IdleListsStayExact : IdleListsExact tidy := by
  refine ⟨by decide, fun g gr h => ?_⟩
  simp only [groupAt, tidy, Table.find] at h
  split at h
  · obtain rfl := Option.some.inj h
    refine ⟨by decide, fun c => ?_⟩
    rcases c with _ | _ | _ | c <;>
      simp [group, idleNumbers, CircuitGroup.idleAt, Circuit.isIdle, List.range, List.range.loop]
  · simp at h

theorem witness_StoresStayBounded : StoresBounded tidy := by unfold StoresBounded; decide +kernel

theorem witness_EngineStaysCoherent : EngineCoherent tidy := by unfold EngineCoherent; decide +kernel

theorem witness_ContextsStayCoherent : ContextsCoherent tidy := by
  refine ⟨rfl, fun i => ?_, by decide, by decide, fun e h => (nomatch (show e ∈ ([] : List HeldEntry) from h))⟩
  simp [generation, tidy, Table.getD, Table.find, Config.generationCount]

theorem witness_ConditionsStayTrue : ConditionsTrue tidy := by unfold ConditionsTrue; decide +kernel

theorem witness_AttemptsAndRecordsStayCoherent :
    AttemptsGood tidy ∧ RecordsConsecutive tidy ∧ ClosingCoherent tidy := by
  refine ⟨fun i c h => (nomatch (show (none : Option Context) = some c from h)), fun k r h => ?_, by decide,
    fun i => ⟨fun h => (nomatch (show i ∈ ([] : List Nat) from h)),
      fun ⟨c, h, _⟩ => (nomatch (show (none : Option Context) = some c from h))⟩,
    fun i c h => (nomatch (show (none : Option Context) = some c from h)), fun h => (h rfl).elim⟩
  match k, h with
  | 0, h => obtain rfl := Option.some.inj h; decide
  | k + 1, h => exact (nomatch (show (none : Option Record) = some r from h))

theorem witness_KeysAndGapsStayCoherent : KeysUnique tidy ∧ GapsCoherent tidy := by
  have one : ∀ {α : Type} (v : α) {i : Nat} {w : α}, Table.find [(0, v)] i = some w → i = 0 ∧ w = v := by
    intro α v i w h
    simp only [Table.find] at h
    split at h
    · exact ⟨(‹0 = i›).symm, (Option.some.inj h).symm⟩
    · simp at h
  refine ⟨fun k i j e f he hf _ _ _ => ?_, by decide, fun i e h => ?_, fun i j e f he hf _ => ?_, by decide,
    fun i => ⟨fun h => ?_, fun ⟨e, h, _⟩ => ?_⟩⟩
  · cases k
    · exact (one entry he).1.trans (one entry hf).1.symm
    · simp [bankOf, tidy, bench, Table.find] at he
  · obtain ⟨rfl, rfl⟩ := one gap h
    exact ⟨by decide, fun h => (nomatch h), fun d h => ⟨970, rfl, (Option.some.inj h).symm⟩⟩
  · exact (one gap he).1.trans (one gap hf).1.symm
  · obtain rfl := List.mem_singleton.1 h
    exact ⟨gap, rfl, rfl⟩
  · obtain ⟨rfl, -⟩ := one gap h
    exact List.mem_singleton.2 rfl

theorem witness_SettingsAndGroupsStayInRange : SettingsInRange tidy ∧ GroupsInRange tidy := by
  refine ⟨by unfold SettingsInRange; decide, rfl, fun g gr h => ?_, by decide +kernel⟩
  simp only [groupAt, tidy, Table.find] at h
  split at h
  · obtain rfl := Option.some.inj h
    subst_vars
    exact ⟨by decide, by unfold GroupRecord.InRange; decide, by decide⟩
  · simp at h

end Sys2Proof.Tests
end

