-- ==== Sys2Proof/Proofs/RouteSelection.lean ====
section
/-! PROOF. ROUTE LIST WRITE (R63, R64): what its checks accept, what the table reads after the write, and the event that
follows from the two. -/

namespace Sys2Proof.RouteSelection

open Sys2Proof Sys2Proof.Machine

/-! ### The checks of a write (R64) -/

theorem noRepeats_iff_nodup {α : Type} [BEq α] [LawfulBEq α] (l : List α) : noRepeats l = true ↔ l.Nodup := by
  induction l with
  | nil => simp [noRepeats]
  | cons a t ih => simp [noRepeats, ih]

theorem choicesGood_iff (choices : List Nat) :
    choicesGood choices = true ↔ choices.length ≤ 8 ∧ (∀ g ∈ choices, g < 1024) ∧ choices.Nodup := by
  simp only [choicesGood, Bool.and_eq_true, decide_eq_true_eq, List.all_eq_true, noRepeats_iff_nodup, and_assoc]
  exact Iff.rfl

/-- A choice list is turned away for its length, for a group id or for a repetition. -/
theorem choicesGood_eq_false_iff (choices : List Nat) :
    choicesGood choices = false ↔ 8 < choices.length ∨ (∃ g ∈ choices, 1023 < g) ∨ ¬ choices.Nodup := by
  have hgroup (g : Nat) : 1024 ≤ g ↔ 1023 < g := Nat.succ_le_iff
  rw [← Bool.not_eq_true, choicesGood_iff]
  simp only [Classical.not_and_iff_not_or_not, Nat.not_le, Classical.not_forall, Nat.not_lt, exists_prop, hgroup]

/-! ### The table after a write (R63, R64) -/

/-- What a list holds once a write is adopted: nothing where the write gives no choice. -/
def heldAfter (rl : RouteList) : Option RouteList := if rl.choices = [] then none else some rl

theorem find_writeList (t : Table RouteList) (list j : Nat) (rl : RouteList) :
    Table.find (writeList t list rl) j = if j = list then heldAfter rl else Table.find t j := by
  by_cases hempty : rl.choices = []
  · simp [writeList, heldAfter, hempty, Table.find_del, eq_comm (a := j)]
  · simp [writeList, heldAfter, hempty, Table.find_put, eq_comm (a := j)]

/-! ### The event -/

/-- The state with one route list written and nothing else changed. -/
def withList (list : Nat) (rl : RouteList) (s : State) : State :=
  { s with sel := { s.sel with routeLists := writeList s.sel.routeLists list rl } }

theorem doRouteListWrite_of_bad {list : Nat} {policy : Named Policy} {choices : List Nat} (ceiling : BitVec 16)
    (s : State) (h : 2047 < list ∨ policy = none ∨ choicesGood choices = false) :
    doRouteListWrite list policy ceiling choices s = (s, .refuse .badField .none) := by
  cases policy with
  | none => rfl
  | some p =>
    have hbad : ¬ (list < Config.routeListCount && choicesGood choices) = true := by
      rcases h with hid | hpolicy | hchoices
      · simp [Nat.not_lt.2 (show Config.routeListCount ≤ list from hid)]
      · cases hpolicy
      · simp [hchoices]
    exact if_neg hbad

theorem doRouteListWrite_of_good {list : Nat} {choices : List Nat} (p : Policy) (ceiling : BitVec 16) (s : State)
    (hlist : list < 2048) (hgood : choicesGood choices = true) :
    doRouteListWrite list (some p) ceiling choices s =
      (withList list ⟨p, ceiling, choices⟩ s, .done (.routeListWritten list (heldAfter ⟨p, ceiling, choices⟩)
        (withList list ⟨p, ceiling, choices⟩ s).sel.routeLists.length)) := by
  simp [doRouteListWrite, done, withList, Config.routeListCount, hlist, hgood, find_writeList]

/-- A ROUTE LIST WRITE that can be taken is answered by its block, and by nothing else. -/
theorem exec_routeListWrite_of_ready {tag : Tag} {s : State} (list : Nat) (policy : Named Policy)
    (ceiling : BitVec 16) (choices : List Nat) (h : ready 32 tag s = true) :
    exec (.routeListWrite tag list policy ceiling choices) s =
      .next (sendReply tag (doRouteListWrite list policy ceiling choices s.atTaking).2
        (doRouteListWrite list policy ceiling choices s.atTaking).1) :=
  request_of_ready (by decide) h

/-- The one reply after a written list: the reply touches the link alone and the write the lists alone. -/
theorem sendReply_withList_atTaking (tag : Tag) (r : Reply) (list : Nat) (rl : RouteList) (s : State) :
    sendReply tag r (withList list rl s.atTaking) =
      { s.answers tag r with sel := (withList list rl s).sel } :=
  congrArg (fun u : State => { u with sel := (withList list rl s).sel }) (sendReply_atTaking tag r s)

/-- Settles O20: the checks decide between a refusal that changes nothing and a write that one list shows. -/
theorem routeListWriteReplacesTheList : Obligations.RouteListWriteReplacesTheList := by
  intro tag list policy ceiling choices s hready
  rw [exec_routeListWrite_of_ready list policy ceiling choices hready]
  constructor
  · intro hbad
    rw [← choicesGood_eq_false_iff] at hbad
    rw [doRouteListWrite_of_bad ceiling _ hbad, sendReply_atTaking]
  · rintro p rfl hlist hlength hgroups hnodup
    have hgood := (choicesGood_iff choices).2 ⟨hlength, hgroups, hnodup⟩
    rw [doRouteListWrite_of_good p ceiling _ hlist hgood, sendReply_withList_atTaking]
    exact ⟨_, heldAfter ⟨p, ceiling, choices⟩, rfl, rfl, rfl, rfl, rfl,
      fun j => find_writeList s.sel.routeLists list j ⟨p, ceiling, choices⟩⟩

end Sys2Proof.RouteSelection
end

