-- ==== Sys2Proof/Proofs/Congestion.lean ====
section
/-! PROOF. The congestion monitor and the advance that drives it: the rise and fall tests (R116), the clocks, the
destination window and the group windows under one advance (R37, R109 to R120, R139, R140). -/

namespace Sys2Proof.Congestion

open Sys2Proof Sys2Proof.Machine

/-! ### The smallest and the largest of a list of levels -/

theorem smallest_mem_and_le (l : List Nat) : smallest l ∈ 3 :: l ∧ ∀ x ∈ 3 :: l, smallest l ≤ x :=
  List.min?_eq_some_iff.1 (List.min?_cons' (x := 3) (xs := l))

theorem largest_mem_and_ge (l : List Nat) : largest l ∈ 0 :: l ∧ ∀ x ∈ 0 :: l, x ≤ largest l :=
  List.max?_eq_some_iff.1 (List.max?_cons' (x := 0) (xs := l))

theorem smallest_le {l : List Nat} {x : Nat} (h : x ∈ l) : smallest l ≤ x :=
  (smallest_mem_and_le l).2 x (List.mem_cons_of_mem 3 h)

theorem le_largest {l : List Nat} {x : Nat} (h : x ∈ l) : x ≤ largest l :=
  (largest_mem_and_ge l).2 x (List.mem_cons_of_mem 0 h)

/-- Among levels, which are at most 3 (R114), the 3 that stands for an empty list never undercuts a member. -/
theorem smallest_mem {l : List Nat} (hne : l ≠ []) (hlevels : ∀ x ∈ l, x ≤ 3) : smallest l ∈ l := by
  rcases List.mem_cons.1 (smallest_mem_and_le l).1 with hthree | hmem
  · obtain ⟨x, hx⟩ := List.exists_mem_of_ne_nil l hne
    have hle : 3 ≤ x := hthree ▸ smallest_le hx
    rwa [hthree, Nat.le_antisymm hle (hlevels x hx)]
  · exact hmem

theorem largest_lt {l : List Nat} {a : Nat} (hne : l ≠ []) (h : ∀ x ∈ l, x < a) : largest l < a := by
  rcases List.mem_cons.1 (largest_mem_and_ge l).1 with hzero | hmem
  · obtain ⟨x, hx⟩ := List.exists_mem_of_ne_nil l hne
    exact hzero ▸ Nat.zero_lt_of_lt (h x hx)
  · exact h _ hmem

/-! ### The adopted level (R116) -/

section
variable {rise fall adopted : Nat} {history : List Nat}

theorem adoptLevel_of_rise (hlength : rise ≤ history.length) (habove : adopted < smallest (history.take rise)) :
    adoptLevel rise fall adopted history = smallest (history.take rise) :=
  if_pos ⟨hlength, habove⟩

theorem adoptLevel_of_fall (hrise : ¬ (rise ≤ history.length ∧ adopted < smallest (history.take rise)))
    (hlength : fall ≤ history.length) (hbelow : largest (history.take fall) < adopted) :
    adoptLevel rise fall adopted history = adopted - 1 :=
  (if_neg hrise).trans (if_pos ⟨hlength, hbelow⟩)

theorem adoptLevel_of_neither (hrise : ¬ (rise ≤ history.length ∧ adopted < smallest (history.take rise)))
    (hfall : ¬ (fall ≤ history.length ∧ largest (history.take fall) < adopted)) :
    adoptLevel rise fall adopted history = adopted :=
  (if_neg hrise).trans (if_neg hfall)

theorem take_ne_nil_of_le {n : Nat} (hpos : 1 ≤ n) (hlength : n ≤ history.length) : history.take n ≠ [] :=
  List.ne_nil_of_length_pos (by rwa [List.length_take_of_le hlength])

/-- One of the newest levels at or below the adopted one stops the rise; so does a history too short. -/
theorem not_rise (h : history.length < rise ∨ ∃ x ∈ history.take rise, x ≤ adopted) :
    ¬ (rise ≤ history.length ∧ adopted < smallest (history.take rise)) := by
  rintro ⟨hlength, habove⟩
  rcases h with hshort | ⟨x, hx, hle⟩
  · exact Nat.not_le.2 hshort hlength
  · exact Nat.not_le.2 (Nat.lt_of_lt_of_le habove (smallest_le hx)) hle

theorem not_fall (h : history.length < fall ∨ ∃ x ∈ history.take fall, adopted ≤ x) :
    ¬ (fall ≤ history.length ∧ largest (history.take fall) < adopted) := by
  rintro ⟨hlength, hbelow⟩
  rcases h with hshort | ⟨x, hx, hle⟩
  · exact Nat.not_le.2 hshort hlength
  · exact Nat.not_le.2 (Nat.lt_of_le_of_lt (le_largest hx) hbelow) hle

end

/-- Settles O45: the tests on the smallest and the largest level are the tests on every one of the newest levels. -/
theorem adoptedLevelsRiseAndFall : Obligations.AdoptedLevelsRiseAndFall := by
  intro rise fall adopted history hrise hfall hlevels
  refine ⟨fun hlength habove => ?_, fun hno => ⟨fun hlength hbelow => ?_, fun hstay => ?_⟩⟩
  · have hmem : smallest (history.take rise) ∈ history.take rise :=
      smallest_mem (take_ne_nil_of_le hrise hlength) (fun x hx => hlevels x (List.mem_of_mem_take hx))
    rw [adoptLevel_of_rise hlength (habove _ hmem)]
    exact ⟨hmem, fun x hx => smallest_le hx⟩
  · have hlt := largest_lt (take_ne_nil_of_le hfall hlength) hbelow
    rw [adoptLevel_of_fall (not_rise hno) hlength hlt, Nat.sub_add_cancel (Nat.zero_lt_of_lt hlt)]
  · exact adoptLevel_of_neither (not_rise hno) (not_fall hstay)

/-! ### The numbers of a table -/

theorem nodup_keys_of_wf {α : Type} {t : Table α} (h : Table.wf t = true) : (t.map (·.1)).Nodup := by
  induction t with
  | nil => exact List.nodup_nil
  | cons e t ih =>
    obtain ⟨hlt, hwf⟩ := (Table.wf_cons e.1 e.2 t).1 h
    refine List.nodup_cons.2 ⟨fun hmem => ?_, ih hwf⟩
    obtain ⟨f, hf, hkey⟩ := List.mem_map.1 hmem
    exact Nat.ne_of_gt (hlt f hf) hkey

theorem find_eq_none_of_not_mem_keys {α : Type} {t : Table α} {i : Nat} (h : i ∉ t.map (·.1)) :
    Table.find t i = none :=
  Option.eq_none_iff_forall_ne_some.2 fun v hv =>
    h (List.mem_map.2 ⟨(i, v), Table.mem_of_find t i v hv, rfl⟩)

/-! ### One group's window under an advance (R109 to R119) -/

/-- The group whose window has taken the advance and is not judged. -/
def integratedGroup (gr : CircuitGroup) : CircuitGroup := { gr with meas := gr.meas.integrate gr.busyCount }

/-- The group whose window has been judged. -/
def judgedGroup (gr : CircuitGroup) : CircuitGroup := { gr with meas := judged gr }

/-- The group after an advance that its window takes. -/
def advancedGroup (gr : CircuitGroup) : CircuitGroup :=
  if windowDs gr ≤ gr.meas.elapsed + 1 then judgedGroup (integratedGroup gr) else integratedGroup gr

theorem groupAt_modifyGroup (g j : Nat) (f : CircuitGroup → CircuitGroup) (s : State) :
    groupAt (modifyGroup g f s) j = if g = j then (groupAt s j).map f else groupAt s j :=
  Table.find_modify s.groups g j f

/-- Nothing is changed by a change to a group that is not defined. -/
theorem ite_map_of_groupAt_eq_none {g : Nat} {s : State} (f : CircuitGroup → CircuitGroup) (j : Nat)
    (h : groupAt s g = none) : (if g = j then (groupAt s j).map f else groupAt s j) = groupAt s j := by
  by_cases hj : g = j
  · subst hj; simp [h]
  · simp [hj]

theorem groupAt_judgeWindow (g j : Nat) (s : State) :
    groupAt (judgeWindow g s) j = if g = j then (groupAt s j).map judgedGroup else groupAt s j := by
  unfold judgeWindow
  cases h : groupAt s g with
  | none => exact (ite_map_of_groupAt_eq_none _ j h).symm
  | some gr =>
    refine Eq.trans ?_ (groupAt_modifyGroup g j judgedGroup s)
    dsimp only
    split <;> simp [groupAt] <;> rfl

theorem groupAt_advanceWindow (g j : Nat) (s : State) :
    groupAt (advanceWindow g s) j = if g = j then (groupAt s j).map advancedGroup else groupAt s j := by
  unfold advanceWindow
  cases h : groupAt s g with
  | none => exact (ite_map_of_groupAt_eq_none _ j h).symm
  | some gr =>
    dsimp only
    by_cases hj : g = j
    · subst hj
      split <;> rename_i hend <;>
        simp [groupAt_judgeWindow, groupAt_modifyGroup, h, advancedGroup, hend, integratedGroup]
    · split <;> simp [groupAt_judgeWindow, groupAt_modifyGroup, hj]

/-- The windows of different groups do not touch one another. -/
theorem groupAt_foldl_advanceWindow {keys : List Nat} (hnodup : keys.Nodup) (s : State) (j : Nat) :
    groupAt (keys.foldl (fun t g => advanceWindow g t) s) j =
      if j ∈ keys then (groupAt s j).map advancedGroup else groupAt s j := by
  induction keys generalizing s with
  | nil => simp
  | cons g keys ih =>
    obtain ⟨hnotMem, hnodup⟩ := List.nodup_cons.1 hnodup
    rw [List.foldl_cons, ih hnodup, groupAt_advanceWindow]
    by_cases hj : g = j
    · subst hj; simp [hnotMem]
    · simp [hj, Ne.symm hj]

theorem advanceWindows_of_paused {s : State} (h : windowsRunning s = false) : advanceWindows s = s := by
  simp [advanceWindows, h]

theorem groupAt_advanceWindows {s : State} (hwf : Table.wf s.groups = true) (hrun : windowsRunning s = true)
    (j : Nat) : groupAt (advanceWindows s) j = (groupAt s j).map advancedGroup := by
  rw [advanceWindows, if_pos hrun, groupAt_foldl_advanceWindow (nodup_keys_of_wf hwf)]
  split
  · rfl
  · have hnone : groupAt s j = none := find_eq_none_of_not_mem_keys ‹_›
    simp [hnone]

theorem advancedGroup_of_running {gr : CircuitGroup} (h : gr.meas.elapsed + 1 < gr.record.window * 10) :
    advancedGroup gr = { gr with meas := { gr.meas with
      elapsed := gr.meas.elapsed + 1, integral := min 1536000 (gr.meas.integral + gr.busyCount) } } :=
  if_neg (Nat.not_le.2 h)

theorem advancedGroup_of_ended {gr : CircuitGroup} (h : ¬ gr.meas.elapsed + 1 < gr.record.window * 10) :
    advancedGroup gr = judgedGroup (integratedGroup gr) :=
  if_pos (Nat.not_lt.1 h)

/-! ### What an advance sends (R117, R118, R121, R140) -/

theorem judgeWindow_gains (g : Nat) (s : State) : s.link.GainsOnly Message.isNotice (judgeWindow g s).link := by
  unfold judgeWindow
  cases groupAt s g with
  | none => exact .refl _ _
  | some gr =>
    have hlevel (t : State) (h : t.link = s.link) :
        s.link.GainsOnly Message.isNotice (reportLevel g gr.meas.adopted (judged gr).adopted t).link :=
      (reportLevel_gains _ _ _ _).since h
    dsimp only
    split
    · exact (postNotice_gains _ _).after (hlevel _ rfl)
    · exact hlevel _ rfl

theorem advanceWindow_gains (g : Nat) (s : State) : s.link.GainsOnly Message.isNotice (advanceWindow g s).link := by
  unfold advanceWindow
  cases groupAt s g with
  | none => exact .refl _ _
  | some gr =>
    dsimp only
    split
    · exact (judgeWindow_gains _ _).since rfl
    · exact .refl _ _

theorem foldl_advanceWindow_gains (keys : List Nat) (s : State) :
    s.link.GainsOnly Message.isNotice (keys.foldl (fun t g => advanceWindow g t) s).link := by
  induction keys generalizing s with
  | nil => exact .refl _ _
  | cons g keys ih => exact (ih (advanceWindow g s)).after (advanceWindow_gains g s)

theorem advanceWindows_gains (s : State) : s.link.GainsOnly Message.isNotice (advanceWindows s).link := by
  unfold advanceWindows
  split
  · exact foldl_advanceWindow_gains _ s
  · exact .refl _ _

/-! ### The clocks and the destination window (R37, R139, R140) -/

theorem nextCount_of_lt {n : Nat} (h : n < 281474976710655) : nextCount n = n + 1 := if_neg (Nat.ne_of_lt h)

theorem nextWall_within_day {w : WallTime} (h : w.tod < 863999) : nextWall (some w) = some ⟨w.date, w.tod + 1⟩ := by
  have hlt : w.tod + 1 < 864000 := Nat.succ_lt_succ h
  simp [nextWall, addDs, Config.dayDs, Nat.div_eq_of_lt hlt, Nat.mod_eq_of_lt hlt, addDays]

theorem nextWall_at_midnight {w : WallTime} (h : w.tod = 863999) :
    nextWall (some w) = (nextDate w.date).map (fun d => ⟨d, 0⟩) := by
  cases hnext : nextDate w.date <;> simp [nextWall, addDs, Config.dayDs, h, addDays, hnext]

theorem advanceDestination_eq (s : State) : advanceDestination s =
    { s with num := { s.num with destRemaining := s.num.destRemaining - if windowsRunning s then 1 else 0 } } := by
  cases h : windowsRunning s <;> simp [advanceDestination, h]

/-- What the group windows find: the clocks and the destination window moved, the groups as they were. -/
def beforeWindows (s : State) : State := advanceDestination (advanceClocks s)

theorem beforeWindows_eq (s : State) : beforeWindows s = { s with
    time := { s.time with count := nextCount s.time.count, wall := nextWall s.time.wall },
    num := { s.num with destRemaining := s.num.destRemaining - if windowsRunning s then 1 else 0 },
    link := (beforeWindows s).link } := by
  simp [beforeWindows, advanceDestination_eq, advanceClocks, windowsRunning]

theorem beforeWindows_groups (s : State) : (beforeWindows s).groups = s.groups := by rw [beforeWindows_eq]

theorem windowsRunning_beforeWindows (s : State) : windowsRunning (beforeWindows s) = windowsRunning s := by
  rw [beforeWindows_eq]; rfl

theorem beforeWindows_gains (s : State) : s.link.GainsOnly Message.isNotice (beforeWindows s).link := by
  rw [beforeWindows, advanceDestination_eq]
  exact (recheck_gains _ _).since rfl

/-! ### The whole advance -/

theorem advance_gains (s : State) : s.link.GainsOnly Message.isNotice (advance s).link :=
  (advanceWindows_gains _).after (beforeWindows_gains s)

/-- The windows change the groups and send; every other block is left to the clocks and the destination window. -/
theorem advanceWindows_frame (s : State) :
    advanceWindows s = { s with groups := (advanceWindows s).groups, link := (advanceWindows s).link } := by
  rw [← advanceWindows_ctx s, ← advanceWindows_num s, ← advanceWindows_sel s, ← advanceWindows_gap s,
    ← advanceWindows_time s, ← advanceWindows_rate s, ← advanceWindows_eng s, ← advanceWindows_pending s]

theorem advance_frame (s : State) :
    advance s = { beforeWindows s with groups := (advance s).groups, link := (advance s).link } :=
  advanceWindows_frame (beforeWindows s)

theorem advance_eq (s : State) : advance s = { s with
    time := { s.time with count := nextCount s.time.count, wall := nextWall s.time.wall },
    num := { s.num with destRemaining := s.num.destRemaining - if windowsRunning s then 1 else 0 },
    groups := (advance s).groups, link := (advance s).link } := by
  refine (advance_frame s).trans ?_
  rw [beforeWindows_eq]

theorem advance_wall (s : State) : (advance s).time.wall = nextWall s.time.wall := by rw [advance_eq]

theorem advance_groups_of_paused {s : State} (h : windowsRunning s = false) : (advance s).groups = s.groups := by
  show (advanceWindows (beforeWindows s)).groups = s.groups
  rw [advanceWindows_of_paused (by rwa [windowsRunning_beforeWindows]), beforeWindows_groups]

theorem groupAt_advance {s : State} (hwf : Table.wf s.groups = true) (hrun : windowsRunning s = true) (g : Nat) :
    groupAt (advance s) g = (groupAt s g).map advancedGroup := by
  have h := groupAt_advanceWindows (s := beforeWindows s) (by rwa [beforeWindows_groups])
    (by rwa [windowsRunning_beforeWindows]) g
  rwa [groupAt, groupAt, beforeWindows_groups] at h

/-! ### The two commands (R109, R139) -/

theorem exec_monotonicAdvance (s : State) : exec .monotonicAdvance s = .next (advance s) := rfl

theorem exec_measurementWindowExpiry (g : Nat) (s : State) :
    exec (.measurementWindowExpiry g) s = .next (if windowEnding s g then advance s else s) := rfl

theorem windowEnding_iff (s : State) (g : Nat) : windowEnding s g = true ↔
    windowsRunning s = true ∧ ∃ gr, groupAt s g = some gr ∧ windowDs gr ≤ gr.meas.elapsed + 1 := by
  cases h : groupAt s g <;> simp [windowEnding, h]

/-- Settles O42: an advance moves the clocks, then every group's window on its own, and a window's expiry command is the
advance on which the window ends. -/
theorem advancesMoveClocksAndWindows : Obligations.AdvancesMoveClocksAndWindows := by
  refine ⟨fun s hwf hcount => ?_, fun g s => ⟨fun gr hgr hrun hend => ?_, fun hnot => ?_⟩⟩
  · refine ⟨advance s, exec_monotonicAdvance s, advance_gains s, ?_, fun hunset => ?_,
      fun w hw htod => ?_, fun w hw htod => ?_, advance_groups_of_paused, fun hrun g => ?_⟩
    · rw [advance_wall, ← nextCount_of_lt hcount]
      exact advance_eq s
    · rw [advance_wall, hunset]; rfl
    · rw [advance_wall, hw, nextWall_within_day htod]
    · rw [advance_wall, hw, nextWall_at_midnight htod]
    · rw [groupAt_advance hwf hrun]
      refine congrArg (Option.map · (groupAt s g)) (funext fun gr => ?_)
      split
      · exact advancedGroup_of_running ‹_›
      · exact advancedGroup_of_ended ‹_›
  · have hending := (windowEnding_iff s g).2 ⟨hrun, gr, hgr, hend⟩
    exact ⟨advance s, by rw [exec_measurementWindowExpiry, if_pos hending], exec_monotonicAdvance s⟩
  · have hending : ¬ windowEnding s g = true := fun h => by
      obtain ⟨hrun, gr, hgr, hend⟩ := (windowEnding_iff s g).1 h
      exact Nat.not_le.2 (hnot gr hgr hrun) hend
    rw [exec_measurementWindowExpiry, if_neg hending]

end Sys2Proof.Congestion
end

