-- ==== Sys2Proof/Proofs/GapController.lean ====
section
/-! PROOF. The gap controller (07): the lowest free slot (R125), an entry whose interval changes (R126), GAP ADD (R129),
GAP REMOVE (R130), and automatic requests, which renew, create and replace entries and tell of it (R132 to R134). -/

namespace Sys2Proof.GapController

open Sys2Proof Sys2Proof.Machine

section

variable {s : State} {tag : Tag} {digits : List Nat} {slot : Nat} {e : GapEntry}

/-! ### The slots of the table (R125) -/

theorem freeGapSlot_of_lowest (hslot : slot < 64) (hfree : Table.find s.gap.slots slot = none)
    (hlower : ∀ j, j < slot → Table.find s.gap.slots j ≠ none) : freeGapSlot s = some slot := by
  refine List.find?_range_eq_some.2 ⟨by rw [hfree]; rfl, List.mem_range.2 hslot, fun j hj => ?_⟩
  simpa using Option.isSome_iff_ne_none.2 (hlower j hj)

theorem freeGapSlot_of_full (hfull : ∀ j, j < 64 → Table.find s.gap.slots j ≠ none) : freeGapSlot s = none :=
  List.find?_range_eq_none.2 fun j hj => by
    simpa using Option.isSome_iff_ne_none.2 (hfull j hj)

theorem find_putGap (slot j : Nat) (e : GapEntry) (s : State) :
    Table.find (putGap slot e s).gap.slots j = if j = slot then some e else Table.find s.gap.slots j := by
  simp only [putGap, Table.find_put, eq_comm (a := j)]

theorem find_removeGap (slot j : Nat) (s : State) :
    Table.find (removeGap slot s).gap.slots j = if j = slot then none else Table.find s.gap.slots j := by
  simp only [removeGap, Table.find_del, eq_comm (a := j)]

/-- A slot that is freed and taken again shows the new entry alone. -/
theorem find_putGap_removeGap (slot j : Nat) (e : GapEntry) (s : State) :
    Table.find (putGap slot e (removeGap slot s)).gap.slots j =
      if j = slot then some e else Table.find s.gap.slots j := by
  rw [find_putGap, find_removeGap]
  split <;> rfl

/-! ### An entry whose interval or lifetime changes (R126, R132) -/

/-- The gap deadline of an entry whose interval changes: one new interval after the last pass, where that instant is
still to come (R126). -/
def deadlineAfter (time interval : Nat) (e : GapEntry) : Option Nat :=
  match e.gapDeadline, e.lastPass with
  | some _, some p => if p + interval ≤ time then none else some (p + interval)
  | d, _ => d

theorem withInterval_eq (time interval : Nat) (e : GapEntry) :
    e.withInterval time interval = { e with interval := interval, gapDeadline := deadlineAfter time interval e } := by
  obtain ⟨digits, held, origin, lifetime, lastPass, gapDeadline, createdCount, createdWall, gapped⟩ := e
  cases gapDeadline <;> cases lastPass <;> rfl

theorem replacedGap_eq (time interval : Nat) (lifetime : Option Nat) (e : GapEntry) :
    replacedGap time interval lifetime e = { e with
      interval := interval, lifetime := lifetime, origin := .hostSet,
      gapDeadline := deadlineAfter time interval e } := by
  rw [replacedGap, withInterval_eq]

theorem renew_of_automatic (time interval lifetime : Nat) (horigin : e.origin = .automatic) :
    e.renew time interval lifetime = { e with
      interval := interval, lifetime := some (time + lifetime * 10),
      gapDeadline := deadlineAfter time interval e } := by
  simp only [GapEntry.renew, horigin, withInterval_eq]

theorem renew_of_hostSet_lasting (time interval lifetime : Nat) {d : Nat} (horigin : e.origin = .hostSet)
    (hlasting : e.lifetime = some d) :
    e.renew time interval lifetime = { e with lifetime := some (max d (time + lifetime * 10)) } := by
  simp only [GapEntry.renew, horigin, hlasting]

theorem renew_of_hostSet_permanent (time interval lifetime : Nat) (horigin : e.origin = .hostSet)
    (hpermanent : e.lifetime = none) : e.renew time interval lifetime = e := by
  simp only [GapEntry.renew, horigin, hpermanent]

/-- A lifetime of whole seconds that begins now is shown as it was given. -/
theorem ceilDiv_remaining_tenths (time seconds : Nat) :
    ceilDiv (remaining time (time + seconds * 10)) 10 = seconds := by
  unfold ceilDiv remaining
  omega

theorem remainingLifetime_newGap (digits : List Nat) (interval seconds : Nat) (origin : GapOrigin) (s : State) :
    remainingLifetime (now s) (newGap digits interval origin (some (now s + seconds * 10)) s) = some seconds :=
  congrArg some (ceilDiv_remaining_tenths (now s) seconds)

/-! ### The two requests (R129, R130) -/

/-- A request whose block changes the gap table alone, or nothing, is answered so. -/
theorem request_of_gap_change {c : Instr} {kind : Byte} {act : State → State × Reply} {g : GapTable} {r : Reply}
    (hk : kind ≠ 84) (hready : ready kind tag s = true)
    (hact : act s.atTaking = ({ s.atTaking with gap := g }, r)) :
    request c kind tag act s = .next { s.answers tag r with gap := g } := by
  rw [request_of_ready hk hready, hact]
  exact congrArg (fun u : State => Host.Outcome.next { u with gap := g }) (sendReply_atTaking tag r s)

section GapAdd

variable (interval : Nat) (lifetime : Lifetime)

theorem doGapAdd_of_bad (hbad : digitsGood 1 16 digits = false) :
    doGapAdd digits interval lifetime s = (s, .refuse .badField .none) := by
  simp [doGapAdd, hbad, refuse]

theorem doGapAdd_of_full (hgood : digitsGood 1 16 digits = true) (hnone : gapOfDigits s digits = none)
    (hfull : freeGapSlot s = none) :
    doGapAdd digits interval lifetime s =
      (s, .refuse .tableFull (.gapEntries (countOrigin .hostSet s) (countOrigin .automatic s))) := by
  simp [doGapAdd, hgood, hnone, hfull]

theorem doGapAdd_of_free (hgood : digitsGood 1 16 digits = true) (hnone : gapOfDigits s digits = none)
    (hfree : freeGapSlot s = some slot) :
    doGapAdd digits interval lifetime s =
      (putGap slot (newGap digits (clamp 1 600 interval) .hostSet (lifetimeDeadline (now s) lifetime) s) s,
        .done (.gapAdded slot digits (clamp 1 600 interval) (adoptedLifetime lifetime) false)) := by
  simp [doGapAdd, hgood, hnone, hfree, done]

theorem doGapAdd_of_held (hgood : digitsGood 1 16 digits = true) (hheld : gapOfDigits s digits = some (slot, e)) :
    doGapAdd digits interval lifetime s =
      ({ s with gap :=
        ⟨(putGap slot (replacedGap (now s) (clamp 1 600 interval) (lifetimeDeadline (now s) lifetime) e) s).gap.slots,
          s.gap.autoList.erase slot⟩ },
        .done (.gapAdded slot digits (clamp 1 600 interval) (adoptedLifetime lifetime) true)) := by
  simp [doGapAdd, hgood, hheld, done, putGap]

end GapAdd

theorem doGapRemove_of_bad (hbad : digitsGood 1 16 digits = false) :
    doGapRemove digits s = (s, .refuse .badField .none) := by
  simp [doGapRemove, hbad, refuse]

theorem doGapRemove_of_none (hgood : digitsGood 1 16 digits = true) (hnone : gapOfDigits s digits = none) :
    doGapRemove digits s = (s, .refuse .notFound .none) := by
  simp [doGapRemove, hgood, hnone, refuse]

theorem doGapRemove_of_held (hgood : digitsGood 1 16 digits = true) (hheld : gapOfDigits s digits = some (slot, e)) :
    doGapRemove digits s = (removeGap slot s, .done (.gapRemoved slot e)) := by
  simp [doGapRemove, hgood, hheld, done]

/-! ### Automatic requests (R132, R133) -/

section Automatic

variable (interval lifetime : Nat)

/-- The entry that an automatic request makes (R133). -/
def autoEntry (digits : List Nat) (interval lifetime : Nat) (s : State) : GapEntry :=
  newGap digits interval .automatic (some (now s + lifetime * 10)) s

theorem automaticGap_of_held (hheld : gapOfDigits s digits = some (slot, e)) :
    automaticGap digits interval lifetime s =
      gapChange .renewed slot (e.renew (now s) interval lifetime)
        (putGap slot (e.renew (now s) interval lifetime) s) := by
  simp only [automaticGap, hheld]

theorem automaticGap_of_free (hnone : gapOfDigits s digits = none) (hfree : freeGapSlot s = some slot) :
    automaticGap digits interval lifetime s =
      gapChange .created slot (autoEntry digits interval lifetime s)
        (createAuto slot (autoEntry digits interval lifetime s) s) := by
  simp only [automaticGap, createAutoGap, hnone, hfree, autoEntry]

theorem automaticGap_of_oldest {later : List Nat} {old : GapEntry} (hnone : gapOfDigits s digits = none)
    (hfull : freeGapSlot s = none) (hlist : s.gap.autoList = slot :: later)
    (hold : Table.find s.gap.slots slot = some old) :
    automaticGap digits interval lifetime s =
      gapChange (.replaced old.digits) slot (autoEntry digits interval lifetime s)
        (createAuto slot (autoEntry digits interval lifetime s) (removeGap slot s)) := by
  simp only [automaticGap, createAutoGap, hnone, hfull, hlist, hold, autoEntry]

theorem automaticGap_of_full (hnone : gapOfDigits s digits = none) (hfull : freeGapSlot s = none)
    (hlist : s.gap.autoList = []) :
    automaticGap digits interval lifetime s = postNotice (.gapTableFull digits interval lifetime) s := by
  simp only [automaticGap, createAutoGap, hnone, hfull, hlist]

/-- GAP CHANGE about an entry that an automatic request has just made (R134). -/
theorem gapChange_autoEntry {t : State} (kind : GapChangeKind) (htime : t.time = s.time) :
    gapChange kind slot (autoEntry digits interval lifetime s) t =
      postNotice (.gapChange kind slot digits .automatic interval (some lifetime)) t := by
  have hnow : now t = now s := congrArg TimeBase.count htime
  rw [gapChange, hnow, autoEntry, remainingLifetime_newGap]
  rfl

end Automatic

end

/-! ### The statement -/

/-- Settles O21: each request and each automatic request by what the table holds of its digits and by its free slots. -/
theorem gapsAreAddedAndRemoved : Obligations.GapsAreAddedAndRemoved := by
  refine ⟨fun tag digits interval lifetime s hready => ⟨fun hbad => ?_, ?_⟩,
    fun tag digits s hready => ⟨fun hbad => ?_, fun hgood hnone => ?_, fun slot e hgood hheld => ?_⟩, ?_⟩
  · exact request_of_gap_change (by decide) hready (doGapAdd_of_bad interval lifetime hbad)
  · rintro n secs life hn hsecs hlife hgood
    obtain rfl : n = clamp 1 600 interval := hn
    obtain rfl : secs = adoptedLifetime lifetime := hsecs
    obtain rfl : life = lifetimeDeadline (now s) lifetime := hlife
    refine ⟨fun slot hnone hslot hfree hlower => ?_, fun hnone hfull => ?_, fun slot e hheld => ?_⟩
    · have hact := doGapAdd_of_free (s := s.atTaking) interval lifetime hgood hnone
        (freeGapSlot_of_lowest hslot hfree hlower)
      exact ⟨_, request_of_gap_change (by decide) hready hact, rfl, rfl, fun j => find_putGap slot j _ s⟩
    · exact request_of_gap_change (by decide) hready
        (doGapAdd_of_full (s := s.atTaking) interval lifetime hgood hnone (freeGapSlot_of_full hfull))
    · have hact := doGapAdd_of_held (s := s.atTaking) interval lifetime hgood hheld
      rw [replacedGap_eq] at hact
      exact ⟨_, request_of_gap_change (by decide) hready hact, rfl, rfl, fun j => find_putGap slot j _ s⟩
  · exact request_of_gap_change (by decide) hready (doGapRemove_of_bad hbad)
  · exact request_of_gap_change (by decide) hready (doGapRemove_of_none (s := s.atTaking) hgood hnone)
  · have hact := doGapRemove_of_held (s := s.atTaking) hgood hheld
    exact ⟨_, request_of_gap_change (by decide) hready hact, rfl, rfl, fun j => find_removeGap slot j s⟩
  · rintro digits interval lifetime _ s _ rfl rfl
    refine ⟨fun slot e r hheld hr => ?_, fun hnone => ⟨fun slot hslot hfree hlower => ?_, fun hfull => ⟨?_, ?_⟩⟩⟩
    · obtain rfl : r = e.renew (now s) interval lifetime := by
        cases horigin : e.origin with
        | automatic => rw [hr, renew_of_automatic _ _ _ horigin, horigin]; rfl
        | hostSet =>
          cases hlasting : e.lifetime with
          | none => rw [hr, renew_of_hostSet_permanent _ _ _ horigin hlasting, horigin, hlasting]
          | some d => rw [hr, renew_of_hostSet_lasting _ _ _ horigin hlasting, horigin, hlasting]; rfl
      rw [automaticGap_of_held interval lifetime hheld]
      exact ⟨rfl, fun j => find_putGap slot j _ s⟩
    · rw [automaticGap_of_free interval lifetime hnone (freeGapSlot_of_lowest hslot hfree hlower),
        gapChange_autoEntry interval lifetime .created (createAuto_time slot _ s)]
      exact ⟨rfl, fun j => find_putGap slot j _ s⟩
    · intro slot later old hlist hold
      rw [automaticGap_of_oldest interval lifetime hnone (freeGapSlot_of_full hfull) hlist hold,
        gapChange_autoEntry (s := s) interval lifetime _ (createAuto_time slot _ (removeGap slot s))]
      have herase : s.gap.autoList.erase slot = later := by rw [hlist, List.erase_cons_head]
      exact ⟨by rw [← herase]; rfl, fun j => find_putGap_removeGap slot j _ s⟩
    · intro hlist
      exact automaticGap_of_full interval lifetime hnone (freeGapSlot_of_full hfull) hlist

end Sys2Proof.GapController
end

/-! PROOF. The time base and the carrier agreements (08): SET TIME (R142), HOLIDAY WRITE (R144), BAND SCHEDULE WRITE
(R146), CARRIER WRITE (R150) and CARRIER READ (R151). Each block is described by its refusal and by its adoption; the
statements then follow from how a taken request is answered. -/

namespace Sys2Proof.TimeAndAgreements

open Sys2Proof Sys2Proof.Machine

/-! ### Answering a request that changes the time base, the rating unit or neither -/

section Answering

variable {c : Instr} {kind : Byte} {tag : Tag} {act : State → State × Reply} {s : State} {r : Reply}

/-- A request whose block sends nothing and changes at most the time base and the rating unit is answered so. -/
theorem request_of_time_rate_change (tb : TimeBase) (ru : RatingUnit) (hk : kind ≠ 84)
    (hready : ready kind tag s = true)
    (hact : act s.atTaking = ({ s.atTaking with time := tb, rate := ru }, r)) :
    request c kind tag act s = .next { s.answers tag r with time := tb, rate := ru } := by
  rw [request_of_ready hk hready, hact]
  exact congrArg (fun u : State => Host.Outcome.next { u with time := tb, rate := ru }) (sendReply_atTaking tag r s)

theorem request_of_unchanged (hk : kind ≠ 84) (hready : ready kind tag s = true)
    (hact : act s.atTaking = (s.atTaking, r)) : request c kind tag act s = .next (s.answers tag r) :=
  request_of_time_rate_change s.time s.rate hk hready hact

end Answering

/-! ### CARRIER READ (R151) -/

/-- Settles O11: the two branches of the block, on the limit of the carrier ids. -/
theorem carrierReadShowsTheAgreement : Obligations.CarrierReadShowsTheAgreement := by
  intro tag carrier s hready
  refine request_of_unchanged (by decide) hready ?_
  by_cases hid : 127 < carrier
  · have hout : ¬ carrier < Config.carrierCount := Nat.not_lt.2 hid
    rw [doCarrierRead, if_neg hout, if_pos hid, refuse]
  · have hin : carrier < Config.carrierCount := Nat.not_le.1 hid
    rw [doCarrierRead, if_pos hin, if_neg hid, done]
    rfl

/-! ### The fields that CARRIER WRITE adopts (R150) -/

theorem clamp_zero (hi v : Nat) : clamp 0 hi v = min hi v := Nat.zero_max _

theorem bandRates_at_clamped (r : BandRates) (b : Nat) : r.clamped.at b = min 1000000 (r.at b) := by
  match b with
  | 0 | 1 | 2 | _ + 3 => exact clamp_zero _ _

theorem rates_at_clamped (t : Tariff) (c : DayClass) (b : Nat) :
    t.clamped.rates.at c b = min 1000000 (t.rates.at c b) := by
  cases c <;> exact bandRates_at_clamped _ b

theorem clamped_fee (t : Tariff) : t.clamped.fee = min 10000000 t.fee := clamp_zero _ _

theorem clamped_first (t : Tariff) : t.clamped.first = min 600 t.first := clamp_zero _ _

theorem clamped_step (t : Tariff) : t.clamped.step = max 1 (min 60 t.step) := rfl

/-- The agreement that good fields give. -/
def adoptedAgreement (own mirror : Bool) (f : CarrierFields) : Carrier :=
  ⟨own, f.revision, f.inbound.clamped, mirror, f.outbound.clamped, clamp 0 100 f.premium⟩

section CarrierWrite

variable {carrier : Nat} {f : CarrierFields}

theorem adopt_of_named {own mirror : Bool} (hown : f.own = some own) (hmirror : f.mirror = some mirror) :
    f.adopt = some (adoptedAgreement own mirror f) := by
  simp only [CarrierFields.adopt, hown, hmirror, adoptedAgreement]

theorem adopt_of_unnamed (h : f.own = none ∨ f.mirror = none) : f.adopt = none := by
  rcases h with hown | hmirror
  · simp only [CarrierFields.adopt, hown]
  · cases hown : f.own <;> simp only [CarrierFields.adopt, hown, hmirror]

/-- The rating unit with the agreement of one carrier replaced. -/
def withAgreement (carrier : Nat) (a : Carrier) (ru : RatingUnit) : RatingUnit :=
  { ru with carriers := Table.store ru.carriers carrier a Carrier.zero }

theorem getD_withAgreement (carrier j : Nat) (a : Carrier) (ru : RatingUnit) :
    Table.getD (withAgreement carrier a ru).carriers j Carrier.zero =
      if j = carrier then a else Table.getD ru.carriers j Carrier.zero := by
  simp only [withAgreement, Table.getD_store, eq_comm (a := j)]

theorem doCarrierWrite_of_bad (s : State) (h : 127 < carrier ∨ f.own = none ∨ f.mirror = none) :
    doCarrierWrite carrier f s = (s, .refuse .badField .none) := by
  cases hadopt : f.adopt with
  | none => simp only [doCarrierWrite, hadopt, refuse]
  | some a =>
    have hout : ¬ carrier < Config.carrierCount := by
      rcases h with hid | hunnamed
      · exact Nat.not_lt.2 hid
      · rw [adopt_of_unnamed hunnamed] at hadopt
        cases hadopt
    simp only [doCarrierWrite, hadopt, if_neg hout, refuse]

theorem doCarrierWrite_of_good {a : Carrier} (s : State) (hid : carrier < 128) (hadopt : f.adopt = some a) :
    doCarrierWrite carrier f s =
      ({ s with rate := withAgreement carrier a s.rate }, .done (.carrier carrier a)) := by
  have hin : carrier < Config.carrierCount := hid
  simp only [doCarrierWrite, hadopt, if_pos hin, done, withAgreement]

end CarrierWrite

/-- Settles O24: the fields decide between a refusal and an agreement that the carrier's number alone then reads. -/
theorem carrierWriteReplacesTheAgreement : Obligations.CarrierWriteReplacesTheAgreement := by
  intro tag carrier f s hready
  refine ⟨fun hbad => request_of_unchanged (by decide) hready (doCarrierWrite_of_bad _ hbad), ?_⟩
  intro own mirror hid hown hmirror
  have hact := doCarrierWrite_of_good s.atTaking hid (adopt_of_named hown hmirror)
  refine ⟨_, adoptedAgreement own mirror f,
    request_of_time_rate_change s.time (withAgreement carrier _ s.rate) (by decide) hready hact, rfl, rfl, rfl, rfl,
    clamp_zero _ _, clamped_fee _, clamped_first _, clamped_step _, clamped_fee _, clamped_first _, clamped_step _,
    fun c b => ⟨rates_at_clamped _ c b, rates_at_clamped _ c b⟩,
    fun j => getD_withAgreement carrier j _ s.rate⟩

/-! ### The model's sort -/

section Sorting

variable {α : Type}

theorem insertBy_perm (before : α → α → Bool) (a : α) (l : List α) : (insertBy before a l).Perm (a :: l) := by
  induction l with
  | nil => exact .refl _
  | cons b t ih =>
    rw [insertBy]
    split
    · exact .refl _
    · exact (ih.cons b).trans (.swap a b t)

theorem sortBy_perm (before : α → α → Bool) (l : List α) : (sortBy before l).Perm l := by
  induction l with
  | nil => exact .refl _
  | cons a t ih => exact (insertBy_perm before a (sortBy before t)).trans (ih.cons a)

theorem mem_insertBy {before : α → α → Bool} {a x : α} {l : List α} :
    x ∈ insertBy before a l ↔ x = a ∨ x ∈ l :=
  (insertBy_perm before a l).mem_iff.trans List.mem_cons

/-- Inserted before the first greater key, an element stands behind every key that is not greater. -/
theorem pairwise_insertBy (key : α → Nat) (a : α) {l : List α} (h : l.Pairwise (fun x y => key x ≤ key y)) :
    (insertBy (fun x y => key x < key y) a l).Pairwise (fun x y => key x ≤ key y) := by
  induction l with
  | nil => exact List.pairwise_singleton _ a
  | cons b t ih =>
    obtain ⟨hb, ht⟩ := List.pairwise_cons.1 h
    rw [insertBy]
    split
    next hlt =>
      have hab : key a ≤ key b := Nat.le_of_lt (of_decide_eq_true hlt)
      refine List.pairwise_cons.2 ⟨fun x hx => ?_, h⟩
      rcases List.mem_cons.1 hx with rfl | hx
      · exact hab
      · exact Nat.le_trans hab (hb x hx)
    next hnot =>
      have hba : key b ≤ key a := Nat.not_lt.1 fun hlt => hnot (decide_eq_true hlt)
      refine List.pairwise_cons.2 ⟨fun x hx => ?_, ih ht⟩
      rcases mem_insertBy.1 hx with rfl | hx
      · exact hba
      · exact hb x hx

theorem pairwise_sortBy (key : α → Nat) (l : List α) :
    (sortBy (fun x y => key x < key y) l).Pairwise (fun x y => key x ≤ key y) := by
  induction l with
  | nil => exact List.Pairwise.nil
  | cons a t ih => exact pairwise_insertBy key a ih

/-- Of keys that do not repeat, the sorted ones rise strictly. -/
theorem pairwise_lt_map_sortBy (key : α → Nat) {l : List α} (h : (l.map key).Nodup) :
    ((sortBy (fun x y => key x < key y) l).map key).Pairwise (· < ·) := by
  have hle := List.pairwise_map.2 (pairwise_sortBy key l)
  have hne := (((sortBy_perm (fun x y => key x < key y) l).map key).nodup_iff).2 h
  exact (hle.and hne).imp fun ⟨hle, hne⟩ => Nat.lt_of_le_of_ne hle hne

end Sorting

/-! ### HOLIDAY WRITE (R144) -/

theorem holidaysGood_iff (l : List Date) :
    holidaysGood l = true ↔ l.length ≤ 32 ∧ (∀ d ∈ l, validDate d = true) ∧ l.Nodup := by
  simp only [holidaysGood, Bool.and_eq_true, decide_eq_true_eq, List.all_eq_true, RouteSelection.noRepeats_iff_nodup,
    and_assoc]

/-- A holiday list is turned away for its length, for a repetition or for a date. -/
theorem holidaysGood_of_bad {l : List Date} (h : 32 < l.length ∨ ¬ l.Nodup ∨ ∃ d ∈ l, validDate d = false) :
    holidaysGood l = false := by
  rw [← Bool.not_eq_true, holidaysGood_iff]
  rintro ⟨hlength, hvalid, hnodup⟩
  rcases h with hlong | hrepeats | ⟨d, hd, hinvalid⟩
  · exact Nat.not_lt.2 hlength hlong
  · exact hrepeats hnodup
  · rw [hvalid d hd] at hinvalid
    cases hinvalid

theorem holidaysFieldGood_of_good {k : Keep (List Date)}
    (h : ∀ l, k = .to l → l.length ≤ 32 ∧ (∀ d ∈ l, validDate d = true) ∧ l.Nodup) : holidaysFieldGood k = true := by
  rcases k with _ | l
  · rfl
  · exact (holidaysGood_iff l).2 (h l rfl)

theorem allNamed_map_some {α : Type} (l : List α) : allNamed (l.map some) = some l := by
  induction l with
  | nil => rfl
  | cons a t ih => simp only [List.map_cons, allNamed, ih]

theorem allNamed_of_none_mem {α : Type} {l : List (Named α)} (h : none ∈ l) : allNamed l = none := by
  induction l with
  | nil => cases h
  | cons a t ih =>
    cases a with
    | none => rfl
    | some a =>
      have ht : none ∈ t := (List.mem_cons.1 h).resolve_left (Option.some_ne_none a).symm
      simp only [allNamed, ih ht]

/-- A weekend mask as it is held: the weekdays of the list in the order of R141. -/
def maskOf (l : List Weekday) : List Weekday := Weekday.all.filter (l.contains ·)

theorem mem_maskOf (l : List Weekday) (w : Weekday) : w ∈ maskOf l ↔ w ∈ l := by
  have hall : w ∈ Weekday.all := by cases w <;> decide
  simp only [maskOf, List.mem_filter, hall, true_and, List.contains_iff_mem]

theorem adoptMask_to (l present : List Weekday) : adoptMask (.to (l.map some)) present = some (maskOf l) := by
  rw [adoptMask, allNamed_map_some]
  rfl

section HolidayWrite

variable {mask : Keep (List (Named Weekday))} {holidays : Keep (List Date)}

/-- The time base with the calendar that HOLIDAY WRITE adopts. -/
def withCalendar (m : List Weekday) (h : List Date) (tb : TimeBase) : TimeBase :=
  { tb with weekendMask := m, holidays := h }

theorem doHolidayWrite_of_good {m : List Weekday} (s : State) (hgood : holidaysFieldGood holidays = true)
    (hmask : adoptMask mask s.time.weekendMask = some m) :
    doHolidayWrite mask holidays s =
      ({ s with time := withCalendar m (adoptHolidays holidays s.time.holidays) s.time },
        .done (.calendar m (adoptHolidays holidays s.time.holidays))) := by
  simp only [doHolidayWrite, hgood, if_true, hmask, done, withCalendar]

theorem doHolidayWrite_of_bad_list (s : State) (hbad : holidaysFieldGood holidays = false) :
    doHolidayWrite mask holidays s = (s, .refuse .badField .none) := by
  simp only [doHolidayWrite, hbad, Bool.false_eq_true, if_false, refuse]

theorem doHolidayWrite_of_bad_mask (s : State) (hbad : adoptMask mask s.time.weekendMask = none) :
    doHolidayWrite mask holidays s = (s, .refuse .badField .none) := by
  simp only [doHolidayWrite, hbad, refuse, ite_self]

theorem doHolidayWrite_of_bad (s : State)
    (h : (∃ l, mask = .to l ∧ none ∈ l) ∨ (∃ l, holidays = .to l ∧
      (32 < l.length ∨ ¬ l.Nodup ∨ ∃ d ∈ l, validDate d = false))) :
    doHolidayWrite mask holidays s = (s, .refuse .badField .none) := by
  rcases h with ⟨l, rfl, hnone⟩ | ⟨l, rfl, hbad⟩
  · refine doHolidayWrite_of_bad_mask s ?_
    rw [adoptMask, allNamed_of_none_mem hnone, Option.map_none]
  · exact doHolidayWrite_of_bad_list s (holidaysGood_of_bad hbad)

theorem exec_holidayWrite_of_good {tag : Tag} {s : State} {m : List Weekday} (hready : ready 49 tag s = true)
    (hgood : holidaysFieldGood holidays = true) (hmask : adoptMask mask s.time.weekendMask = some m) :
    exec (.holidayWrite tag mask holidays) s =
      .next { s.answers tag (.done (.calendar m (adoptHolidays holidays s.time.holidays))) with
        time := withCalendar m (adoptHolidays holidays s.time.holidays) s.time } :=
  request_of_time_rate_change _ s.rate (by decide) hready (doHolidayWrite_of_good s.atTaking hgood hmask)

end HolidayWrite

theorem adoptHolidays_keep (present : List Date) {k : Keep (List Date)} (h : k = .keep) :
    adoptHolidays k present = present := by
  rw [h, adoptHolidays]

theorem adoptHolidays_to (present l : List Date) {k : Keep (List Date)} (h : k = .to l) :
    (adoptHolidays k present).Perm l ∧
      (adoptHolidays k present).Pairwise (fun a b => dayNumber a ≤ dayNumber b) := by
  rw [h, adoptHolidays]
  exact ⟨sortBy_perm _ l, pairwise_sortBy dayNumber l⟩

/-! ### BAND SCHEDULE WRITE (R146) -/

theorem bandsGood_iff (l : List BandEntry) :
    bandsGood l = true ↔ l.length ≤ 4 ∧ (∀ e ∈ l, e.start ≤ 1439 ∧ e.band ≤ 3) ∧ (l.map (·.start)).Nodup := by
  simp only [bandsGood, Bool.and_eq_true, decide_eq_true_eq, List.all_eq_true, RouteSelection.noRepeats_iff_nodup,
    and_assoc]

/-- A band list is turned away for its length, for an entry out of range or for a repeated start. -/
theorem bandsGood_of_bad {l : List BandEntry}
    (h : 4 < l.length ∨ (∃ e ∈ l, 1439 < e.start ∨ 3 < e.band) ∨ ¬ (l.map (·.start)).Nodup) :
    bandsGood l = false := by
  rw [← Bool.not_eq_true, bandsGood_iff]
  rintro ⟨hlength, hrange, hnodup⟩
  rcases h with hlong | ⟨e, he, hout⟩ | hrepeats
  · exact Nat.not_lt.2 hlength hlong
  · obtain ⟨hstart, hband⟩ := hrange e he
    exact hout.elim (Nat.not_lt.2 hstart) (Nat.not_lt.2 hband)
  · exact hrepeats hnodup

/-- The bands adopted: the entries given in the order of their starts, the first of them moved to 0. -/
theorem adoptBands_of_ne_nil {l : List BandEntry} (hne : l ≠ []) (hnodup : (l.map (·.start)).Nodup) :
    ∃ first later, (first :: later).Perm l ∧ ((first :: later).map (·.start)).Pairwise (· < ·) ∧
      adoptBands l = { first with start := 0 } :: later := by
  have hperm := sortBy_perm (fun a b : BandEntry => a.start < b.start) l
  have hrising := pairwise_lt_map_sortBy BandEntry.start hnodup
  cases hsorted : sortBy (fun a b : BandEntry => a.start < b.start) l with
  | nil =>
    rw [hsorted] at hperm
    exact (hne hperm.nil_eq.symm).elim
  | cons first later =>
    rw [hsorted] at hperm hrising
    exact ⟨first, later, hperm, hrising, by simp only [adoptBands, hsorted]⟩

theorem doBandScheduleWrite_of_bad {c : Named DayClass} {l : List BandEntry} (s : State)
    (h : c = none ∨ bandsGood l = false) : doBandScheduleWrite c l s = (s, .refuse .badField .none) := by
  cases c with
  | none => rfl
  | some c =>
    have hbad : bandsGood l = false := h.resolve_left (Option.some_ne_none c)
    simp only [doBandScheduleWrite, hbad, Bool.false_eq_true, if_false, refuse]

theorem doBandScheduleWrite_nil (c : DayClass) (s : State) :
    doBandScheduleWrite (some c) [] s = (s, .done (.bands c (bandList s.time c))) := rfl

theorem doBandScheduleWrite_of_good (c : DayClass) {l : List BandEntry} (s : State) (hne : l ≠ [])
    (hgood : bandsGood l = true) :
    doBandScheduleWrite (some c) l s =
      ({ s with time := s.time.setBands c (adoptBands l) }, .done (.bands c (adoptBands l))) := by
  have hempty : l.isEmpty = false := List.isEmpty_eq_false_iff.2 hne
  simp only [doBandScheduleWrite, hgood, hempty, if_true, Bool.false_eq_true, if_false, done]

/-- Settles O23: KEEP and a given list for each calendar field, an empty and a given band list, and the refusals. -/
theorem calendarAndBandsAreWritten : Obligations.CalendarAndBandsAreWritten := by
  refine ⟨fun tag mask dates s hready hdates => ?_, fun tag mask holidays s hready hbad => ?_,
    fun tag c l s hready hne hlength hrange hnodup => ?_, fun tag c s hready => ?_, fun tag c l s hready hbad => ?_⟩
  · have hgood := holidaysFieldGood_of_good hdates
    rcases mask with _ | given
    · exact ⟨_, exec_holidayWrite_of_good hready hgood rfl, rfl, fun _ => rfl, nofun,
        adoptHolidays_keep _, fun l => adoptHolidays_to _ l⟩
    · refine ⟨_, exec_holidayWrite_of_good hready hgood (adoptMask_to given _), rfl, nofun, ?_,
        adoptHolidays_keep _, fun l => adoptHolidays_to _ l⟩
      rintro _ ⟨⟩ w
      exact mem_maskOf given w
  · exact request_of_unchanged (by decide) hready (doHolidayWrite_of_bad _ hbad)
  · obtain ⟨first, later, hperm, hrising, hadopted⟩ := adoptBands_of_ne_nil hne hnodup
    have hact := doBandScheduleWrite_of_good c s.atTaking hne ((bandsGood_iff l).2 ⟨hlength, hrange, hnodup⟩)
    rw [hadopted] at hact
    exact ⟨first, later, hperm, hrising, request_of_time_rate_change _ s.rate (by decide) hready hact⟩
  · exact request_of_unchanged (by decide) hready (doBandScheduleWrite_nil c s.atTaking)
  · exact request_of_unchanged (by decide) hready
      (doBandScheduleWrite_of_bad _ (hbad.imp_right bandsGood_of_bad))

/-! ### A condition that its owner re-evaluates (R196) -/

theorem postNotice_conditions (n : Notice) (s : State) : (postNotice n s).link.conditions = s.link.conditions := by
  show (s.link.notice n).conditions = s.link.conditions
  rcases s.link.notice_cases n with h | h | h <;>
    exact (congrArg Link.conditions h).trans rfl

theorem contains_putInSet_conditions (c : Condition) (present : Bool) (set : List Condition) :
    (putInSet Condition.all c present set).contains c = present := by
  have hall : c ∈ Condition.all := by cases c <;> decide
  cases present <;> simp [putInSet, hall]

theorem contains_setCondition (c : Condition) (present : Bool) (s : State) :
    (setCondition c present s).link.conditions.contains c = present := by
  unfold setCondition
  split
  · assumption
  · rw [postNotice_conditions]
    exact contains_putInSet_conditions c present s.link.conditions

theorem contains_recheck (c : Condition) (s : State) :
    (recheck c s).link.conditions.contains c = holdsNow c s :=
  contains_setCondition c _ s

/-- A condition that is re-evaluated changes nothing but the link. -/
theorem recheck_frame (c : Condition) (s : State) : recheck c s = { s with link := (recheck c s).link } := by
  unfold recheck setCondition
  split <;> rfl

/-! ### SET TIME (R142) -/

section SetTime

variable {date : Date} {tod : Nat}

/-- The state in which "time unset" is re-evaluated: the wall clock set. -/
def withWall (w : Wall) (s : State) : State := { s with time := { s.time with wall := w } }

/-- The state that SET TIME leaves, before its reply. -/
def afterSetTime (w : Wall) (s : State) : State :=
  { withWall w s with
    link := (recheck .timeUnset (withWall w s)).link,
    ctx := { s.ctx with contexts := s.ctx.contexts.map (fun e => (e.1, e.2.flagTimeStep)) } }

theorem doSetTime_of_bad (s : State) (h : validDate date = false ∨ 863999 < tod) :
    doSetTime date tod s = (s, .refuse .badField .none) := by
  have hbad : ¬ (validDate date && tod < Config.dayDs) = true := by
    rcases h with hdate | htod
    · simp [hdate]
    · simp [Nat.not_lt.2 (show Config.dayDs ≤ tod from htod)]
  exact if_neg hbad

theorem doSetTime_of_good (s : State) (hdate : validDate date = true) (htod : tod < 864000) :
    doSetTime date tod s = (afterSetTime (some ⟨date, tod⟩) s,
      .done (.timeSet s.time.wall (some ⟨date, tod⟩) s.time.count (countState .answered s))) := by
  have hgood : (validDate date && tod < Config.dayDs) = true := by
    simpa [hdate] using (show tod < Config.dayDs from htod)
  rw [doSetTime, if_pos hgood]
  dsimp only
  rw [recheck_frame]
  rfl

theorem afterSetTime_gains (w : Wall) (s : State) :
    s.link.GainsOnly Message.isNotice (afterSetTime w s).link :=
  (recheck_gains .timeUnset (withWall w s)).since rfl

theorem afterSetTime_timeUnset (t : WallTime) (s : State) :
    (afterSetTime (some t) s).link.conditions.contains .timeUnset = false :=
  contains_recheck .timeUnset (withWall (some t) s)

theorem contextAt_afterSetTime (w : Wall) (s : State) (i : Nat) :
    contextAt (afterSetTime w s) i = (contextAt s i).map Context.flagTimeStep :=
  Table.find_map_snd s.ctx.contexts Context.flagTimeStep i

end SetTime

/-- Settles O22: a bad date or time of day is refused; a good one is the wall clock set, the condition re-evaluated and
every ANSWERED call flagged, then the reply. -/
theorem setTimeSetsTheWallClock : Obligations.SetTimeSetsTheWallClock := by
  intro tag date tod s hready
  refine ⟨fun hbad => request_of_unchanged (by decide) hready (doSetTime_of_bad _ hbad), fun hdate htod => ?_⟩
  have hexec := request_of_ready (c := .setTime tag date tod) (act := doSetTime date tod) (by decide) hready
  rw [doSetTime_of_good s.atTaking hdate htod] at hexec
  exact ⟨_, hexec, rfl, noticesThenReply_of (afterSetTime_gains (some ⟨date, tod⟩) s.atTaking),
    afterSetTime_timeUnset ⟨date, tod⟩ s.atTaking, contextAt_afterSetTime (some ⟨date, tod⟩) s.atTaking⟩

end Sys2Proof.TimeAndAgreements

/-! PROOF. Handover pricing and the settlement queue (09): the duration and the band split of a conversation (R155,
R156), the billed seconds and the charge of a side (R158 to R160), READ RECORDS (R168) and DISCARD RECORDS (R167,
R169). The split is described once, as the pairs of day class and band in the order of their first second, each with
the number of its seconds; the requests are described by what moving the CLOSING calls' records in can do. -/

namespace Sys2Proof.Settlement

open Sys2Proof Sys2Proof.Machine

/-! ### Division rounded up -/

theorem le_ceilDiv_mul (a : Nat) {b : Nat} (hb : 1 ≤ b) : a ≤ ceilDiv a b * b := by
  have hlt := Nat.lt_div_mul_add (a := a + b - 1) hb
  rw [ceilDiv]
  omega

theorem ceilDiv_mul_lt (a : Nat) {b : Nat} (hb : 1 ≤ b) : ceilDiv a b * b < a + b := by
  have hle := Nat.div_mul_le_self (a + b - 1) b
  rw [ceilDiv]
  omega

/-! ### Entries of a band split (R156) -/

/-- The pair of day class and band that an entry stands for. -/
def pairOf (e : SplitEntry) : DayClass × Nat := (e.dayClass, e.band)

theorem sum_seconds_addSeconds (c : DayClass) (b n : Nat) (l : List SplitEntry) :
    ((addSeconds c b n l).map (·.seconds)).sum = (l.map (·.seconds)).sum + n := by
  induction l with
  | nil => simp [addSeconds]
  | cons e t ih =>
    rw [addSeconds]
    split
    · simp only [List.map_cons, List.sum_cons]
      omega
    · simp only [List.map_cons, List.sum_cons, ih]
      omega

/-- The seconds of a pair that has no entry make a new one at the tail. -/
theorem addSeconds_of_not_mem (k : DayClass × Nat) (n : Nat) {l : List SplitEntry} (h : k ∉ l.map pairOf) :
    addSeconds k.1 k.2 n l = l ++ [⟨k.1, k.2, n⟩] := by
  induction l with
  | nil => rfl
  | cons e t ih =>
    rw [List.map_cons, List.mem_cons, not_or] at h
    obtain ⟨hne, ht⟩ := h
    have hother : ¬ (e.dayClass = k.1 ∧ e.band = k.2) := fun ⟨hc, hb⟩ => hne (Prod.ext hc.symm hb.symm)
    rw [addSeconds, if_neg hother, ih ht, List.cons_append]

/-- The seconds of a pair that has an entry raise that entry alone. -/
theorem addSeconds_of_mem (k : DayClass × Nat) (n : Nat) {l : List SplitEntry} (hnodup : (l.map pairOf).Nodup)
    (h : k ∈ l.map pairOf) :
    addSeconds k.1 k.2 n l = l.map (fun e => if k = pairOf e then { e with seconds := e.seconds + n } else e) := by
  induction l with
  | nil => cases h
  | cons e t ih =>
    obtain ⟨hhead, htail⟩ := List.nodup_cons.1 hnodup
    rw [addSeconds, List.map_cons]
    by_cases he : k = pairOf e
    · have hsame : e.dayClass = k.1 ∧ e.band = k.2 := Prod.ext_iff.1 he.symm
      have hrest : ∀ x ∈ t, (if k = pairOf x then { x with seconds := x.seconds + n } else x) = x := fun x hx =>
        if_neg fun hx' : k = pairOf x => hhead (List.mem_map.2 ⟨x, hx, hx'.symm.trans he⟩)
      rw [if_pos hsame, if_pos he, List.map_congr_left hrest, List.map_id']
    · have hother : ¬ (e.dayClass = k.1 ∧ e.band = k.2) := fun hsame => he (Prod.ext_iff.2 hsame).symm
      rw [if_neg hother, if_neg he, ih htail ((List.mem_cons.1 h).resolve_left he)]

/-! ### The split in closed form (R156) -/

section BandSplit

variable (band : Nat → DayClass × Nat)

/-- The pairs of the first seconds of a conversation, in the order in which they first occur. -/
def pairsUpTo : Nat → List (DayClass × Nat)
  | 0 => []
  | n + 1 => if band n ∈ pairsUpTo n then pairsUpTo n else pairsUpTo n ++ [band n]

/-- One of the first seconds of a conversation has the pair `j`, and neither it nor an earlier one has `k`. -/
def OccursBefore (n : Nat) (j k : DayClass × Nat) : Prop := ∃ m, m < n ∧ band m = j ∧ ∀ i, i ≤ m → band i ≠ k

/-- The entry of a pair after the first seconds of a conversation. -/
def entryUpTo (n : Nat) (k : DayClass × Nat) : SplitEntry :=
  ⟨k.1, k.2, (List.range n).countP (fun m => band m == k)⟩

/-- The split of the first seconds of a conversation. -/
def splitUpTo (n : Nat) : List SplitEntry := (pairsUpTo band n).map (entryUpTo band n)

variable {band}

theorem mem_pairsUpTo {n : Nat} {k : DayClass × Nat} : k ∈ pairsUpTo band n ↔ ∃ m, m < n ∧ band m = k := by
  induction n with
  | zero => simp [pairsUpTo]
  | succ n ih =>
    have hadds : k ∈ pairsUpTo band (n + 1) ↔ k ∈ pairsUpTo band n ∨ k = band n := by
      rw [pairsUpTo]
      split
      next hold => exact ⟨.inl, fun h => h.elim id fun hk => hk ▸ hold⟩
      next => simp
    simp only [hadds, ih, Nat.lt_succ_iff_lt_or_eq, or_and_right, exists_or, exists_eq_left, eq_comm (a := k)]

theorem nodup_pairsUpTo (n : Nat) : (pairsUpTo band n).Nodup := by
  induction n with
  | zero => exact List.nodup_nil
  | succ n ih =>
    rw [pairsUpTo]
    split
    next => exact ih
    next hnew =>
      refine List.pairwise_append.2 ⟨ih, List.pairwise_singleton _ _, fun k hk j hj heq => hnew ?_⟩
      rwa [← List.mem_singleton.1 hj, ← heq]

/-- The pairs stand in the order of their first seconds. -/
theorem pairwise_pairsUpTo (n : Nat) : (pairsUpTo band n).Pairwise (OccursBefore band n) := by
  induction n with
  | zero => exact List.Pairwise.nil
  | succ n ih =>
    have hold : (pairsUpTo band n).Pairwise (OccursBefore band (n + 1)) :=
      ih.imp fun ⟨m, hm, hrest⟩ => ⟨m, Nat.lt_succ_of_lt hm, hrest⟩
    rw [pairsUpTo]
    split
    next => exact hold
    next hnew =>
      refine List.pairwise_append.2 ⟨hold, List.pairwise_singleton _ _, fun j hj k hk => ?_⟩
      obtain ⟨m, hm, hband⟩ := mem_pairsUpTo.1 hj
      refine ⟨m, Nat.lt_succ_of_lt hm, hband, fun i hi heq => hnew ?_⟩
      exact mem_pairsUpTo.2 ⟨i, Nat.lt_of_le_of_lt hi hm, heq.trans (List.mem_singleton.1 hk)⟩

theorem map_pairOf_splitUpTo (n : Nat) : (splitUpTo band n).map pairOf = pairsUpTo band n := by
  rw [splitUpTo, List.map_map]
  exact List.map_id' _

theorem entryUpTo_succ (n : Nat) (k : DayClass × Nat) :
    entryUpTo band (n + 1) k =
      if band n = k then { entryUpTo band n k with seconds := (entryUpTo band n k).seconds + 1 }
      else entryUpTo band n k := by
  by_cases h : band n = k <;> simp [entryUpTo, List.range_succ, List.countP_append, h]

theorem seconds_entryUpTo_of_not_mem {n : Nat} {k : DayClass × Nat} (h : k ∉ pairsUpTo band n) :
    (entryUpTo band n k).seconds = 0 := by
  refine List.countP_eq_zero.2 fun m hm heq => h ?_
  exact mem_pairsUpTo.2 ⟨m, List.mem_range.1 hm, eq_of_beq heq⟩

theorem seconds_entryUpTo_pos {n : Nat} {k : DayClass × Nat} (h : k ∈ pairsUpTo band n) :
    1 ≤ (entryUpTo band n k).seconds := by
  obtain ⟨m, hm, heq⟩ := mem_pairsUpTo.1 h
  exact List.countP_pos_iff.2 ⟨m, List.mem_range.2 hm, beq_iff_eq.2 heq⟩

/-- One second more of a conversation is one second more in the entry of its pair. -/
theorem addSeconds_splitUpTo (n : Nat) :
    addSeconds (band n).1 (band n).2 1 (splitUpTo band n) = splitUpTo band (n + 1) := by
  have hpairs := map_pairOf_splitUpTo (band := band) n
  by_cases hold : band n ∈ pairsUpTo band n
  · rw [addSeconds_of_mem (band n) 1 (hpairs ▸ nodup_pairsUpTo n) (hpairs ▸ hold), splitUpTo, splitUpTo, pairsUpTo,
      if_pos hold, List.map_map]
    exact List.map_congr_left fun k _ => (entryUpTo_succ n k).symm
  · have hnew : entryUpTo band (n + 1) (band n) = ⟨(band n).1, (band n).2, 1⟩ := by
      rw [entryUpTo_succ, if_pos rfl, seconds_entryUpTo_of_not_mem hold]
      rfl
    have hkept : ∀ k ∈ pairsUpTo band n, entryUpTo band (n + 1) k = entryUpTo band n k := fun k hk =>
      (entryUpTo_succ n k).trans (if_neg fun heq : band n = k => hold (heq ▸ hk))
    rw [addSeconds_of_not_mem (band n) 1 (hpairs ▸ hold), splitUpTo, splitUpTo, pairsUpTo, if_neg hold,
      List.map_append, List.map_congr_left hkept, List.map_singleton, hnew]

/-- The band split of a conversation is the closed form. -/
theorem bandSplit_eq_splitUpTo (tb : TimeBase) (answer : Wall) (n : Nat) :
    bandSplit tb answer n = splitUpTo (fun m => bandOrFirst tb (secondStart answer m)) n := by
  induction n with
  | zero => rfl
  | succ n ih =>
    rw [← addSeconds_splitUpTo, ← ih, bandSplit, bandSplit, List.range_succ, List.foldl_append]
    rfl

theorem mem_splitUpTo {n : Nat} {e : SplitEntry} :
    e ∈ splitUpTo band n ↔ pairOf e ∈ pairsUpTo band n ∧ e = entryUpTo band n (pairOf e) := by
  rw [splitUpTo, List.mem_map]
  constructor
  · rintro ⟨k, hk, rfl⟩
    exact ⟨hk, rfl⟩
  · rintro ⟨hk, he⟩
    exact ⟨_, hk, he.symm⟩

theorem sum_seconds_splitUpTo (n : Nat) : ((splitUpTo band n).map (·.seconds)).sum = n := by
  induction n with
  | zero => rfl
  | succ n ih => rw [← addSeconds_splitUpTo, sum_seconds_addSeconds, ih]

theorem pairsUpTo_const (k : DayClass × Nat) (n : Nat) : pairsUpTo (fun _ => k) (n + 1) = [k] := by
  induction n with
  | zero => rfl
  | succ n ih => rw [pairsUpTo, ih, if_pos (List.mem_singleton.2 rfl)]

/-- A conversation that stays in one band has one entry. -/
theorem splitUpTo_const (k : DayClass × Nat) {n : Nat} (hn : 1 ≤ n) :
    splitUpTo (fun _ => k) n = [⟨k.1, k.2, n⟩] := by
  obtain ⟨n, rfl⟩ := Nat.exists_eq_add_of_le' hn
  rw [splitUpTo, pairsUpTo_const]
  simp [entryUpTo]

end BandSplit

/-! ### The duration of a call (R155) -/

theorem conversationSeconds_bounds {d : Nat} (hd : d ≤ 864000) :
    1 ≤ conversationSeconds d ∧ conversationSeconds d ≤ 86400 ∧ d ≤ 10 * conversationSeconds d ∧
      (conversationSeconds d = 1 ∨ 10 * conversationSeconds d < d + 10) := by
  unfold conversationSeconds ceilDiv
  omega

theorem duration_rateContext {s : State} {c : Context} {a : Nat} (ha : c.answerCount = some a) :
    (rateContext s c).duration = min 864000 (s.time.count - a) := by
  show min (s.time.count - c.answerCount.getD 0) 864000 = _
  rw [ha, Option.getD_some, Nat.min_comm]

theorem long_rateContext {s : State} {c : Context} {a : Nat} (ha : c.answerCount = some a) :
    (rateContext s c).flags.long = true ↔ 864000 < s.time.count - a := by
  show decide (864000 < s.time.count - c.answerCount.getD 0) = true ↔ _
  rw [ha, Option.getD_some, decide_eq_true_eq]

theorem seconds_rateContext (s : State) (c : Context) :
    (rateContext s c).seconds = conversationSeconds (rateContext s c).duration := rfl

/-- Settles O48: the bounds of the conversation seconds, and the band split in its closed form. -/
theorem callsAreTimedAndSplitByBand : Obligations.CallsAreTimedAndSplitByBand := by
  refine ⟨fun s c a ha _ => ?_, fun tb answer seconds band hband => ?_⟩
  · have hduration := duration_rateContext (s := s) ha
    obtain ⟨hone, hday, hcovered, hrounded⟩ := conversationSeconds_bounds (hduration ▸ Nat.min_le_left _ _)
    rw [← seconds_rateContext] at hone hday hcovered hrounded
    exact ⟨hduration, long_rateContext ha, hone, hday, hcovered, hrounded, rfl⟩
  · have hsplit : bandSplit tb answer seconds = splitUpTo band seconds :=
      hband ▸ bandSplit_eq_splitUpTo tb answer seconds
    rw [hsplit]
    refine ⟨sum_seconds_splitUpTo seconds, ?_, fun e he => ?_, fun n hn => ?_, ?_, fun hunset hone => ?_⟩
    · exact (map_pairOf_splitUpTo seconds).symm ▸ nodup_pairsUpTo seconds
    · obtain ⟨hpair, hentry⟩ := mem_splitUpTo.1 he
      have hcount : e.seconds = (entryUpTo band seconds (pairOf e)).seconds := congrArg SplitEntry.seconds hentry
      exact ⟨hcount ▸ seconds_entryUpTo_pos hpair, hcount⟩
    · exact ⟨entryUpTo band seconds (band n), List.mem_map_of_mem (mem_pairsUpTo.2 ⟨n, hn, rfl⟩), rfl⟩
    · exact List.pairwise_map.2 (pairwise_pairsUpTo seconds)
    · have hconst : band = fun _ => (.weekday, 0) := by
        rw [hband, hunset]
        rfl
      rw [hconst, splitUpTo_const _ hone]

/-! ### Billed seconds and charges (R158 to R160) -/

section Pricing

variable {seconds first step premium : Nat}

theorem billedSeconds_of_le (step : Nat) (h : seconds ≤ first) : billedSeconds seconds first step = first := if_pos h

theorem billedSeconds_of_lt (step : Nat) (h : first < seconds) :
    billedSeconds seconds first step = first + ceilDiv (seconds - first) step * step := if_neg (Nat.not_le.2 h)

theorem billedSeconds_lt (hstep : 1 ≤ step) (h : first < seconds) :
    billedSeconds seconds first step < seconds + step := by
  have hlt := ceilDiv_mul_lt (seconds - first) hstep
  rw [billedSeconds_of_lt step h]
  omega

theorem le_billedSeconds (hstep : 1 ≤ step) : seconds ≤ billedSeconds seconds first step := by
  rcases Nat.lt_or_ge first seconds with h | h
  · have hle := le_ceilDiv_mul (seconds - first) hstep
    rw [billedSeconds_of_lt step h]
    omega
  · rwa [billedSeconds_of_le step h]

/-- The most that a side bills: the longest conversation and all but a second of the longest step. -/
theorem billedSeconds_le (hstep : 1 ≤ step) (hstepmax : step ≤ 60) (hfirst : first ≤ 600) (hseconds : seconds ≤ 86400) :
    billedSeconds seconds first step ≤ 86459 := by
  rcases Nat.lt_or_ge first seconds with h | h
  · have hlt := billedSeconds_lt hstep h
    omega
  · rw [billedSeconds_of_le step h]
    omega

theorem pricedSum_le {rates : Rates} {limit : Nat} (h : ∀ c b, rates.at c b ≤ limit) (l : List SplitEntry) :
    pricedSum rates l ≤ (l.map (·.seconds)).sum * limit := by
  induction l with
  | nil => exact Nat.zero_le _
  | cons e t ih =>
    rw [List.map_cons, List.sum_cons, Nat.add_mul]
    exact Nat.add_le_add (Nat.mul_le_mul_left _ (h _ _)) ih

/-- The bound of R160, without the fee. -/
theorem durationAmount_le {n : Nat} (hpremium : premium ≤ 100) (hn : n ≤ 86459 * 1000000) :
    durationAmount n premium ≤ 2881966667 := by
  have hmul : n * (100 + premium) ≤ 86459 * 1000000 * 200 := Nat.mul_le_mul hn (by omega)
  rw [durationAmount]
  omega

end Pricing

/-- Settles O49: the seconds priced are the seconds billed, so the greatest rate on the most that is billed bounds the
charge. -/
theorem computedSidesAreBounded : Obligations.ComputedSidesAreBounded := by
  intro tariff first step premium seconds revision split extra hstep hstepmax hfirst hpremium _ hseconds hsum hfee
    hrates
  refine ⟨rfl, billedSeconds seconds first step, _, rfl, le_billedSeconds hstep, billedSeconds_of_le step,
    fun h => ⟨billedSeconds_lt hstep h, _, billedSeconds_of_lt step h⟩, Nat.le_add_right _ _, ?_, rfl⟩
  have hpriced := pricedSum_le hrates
    (addSeconds extra.1 extra.2 (billedSeconds seconds first step - seconds) split)
  rw [sum_seconds_addSeconds, hsum, Nat.add_sub_cancel' (le_billedSeconds hstep)] at hpriced
  have hbilled := billedSeconds_le hstep hstepmax hfirst hseconds
  exact Nat.add_le_add hfee
    (durationAmount_le hpremium (Nat.le_trans hpriced (Nat.mul_le_mul_right _ hbilled)))

/-! ### READ RECORDS (R168) -/

section ReadRecords

variable {n : Nat}

/-- The records that fit are the first ones; they take no more than the room, and the next would take more. -/
theorem exists_append_fitting (room : Nat) (l : List Record) :
    ∃ more, l = fitting room l ++ more ∧ ((fitting room l).map recordBytes).sum ≤ room ∧
      ∀ r later, more = r :: later → room < ((fitting room l).map recordBytes).sum + recordBytes r := by
  induction l generalizing room with
  | nil => exact ⟨[], rfl, Nat.zero_le _, fun _ _ h => nomatch h⟩
  | cons r t ih =>
    rw [fitting]
    split
    next hfits =>
      obtain ⟨more, happend, hsum, hnext⟩ := ih (room - recordBytes r)
      refine ⟨more, congrArg (r :: ·) happend, ?_, fun r' later hmore => ?_⟩
      · rw [List.map_cons, List.sum_cons]
        omega
      · have hover := hnext r' later hmore
        rw [List.map_cons, List.sum_cons]
        omega
    next hfull =>
      refine ⟨r :: t, rfl, Nat.zero_le _, ?_⟩
      rintro r' later ⟨⟩
      simpa using hfull

theorem exec_readRecords (tag : Tag) (n : Nat) (s : State) :
    exec (.readRecords tag n) s = request (.readRecords tag n) 56 tag (doReadRecords n) s := rfl

theorem doReadRecords_of_good (s : State) (hone : 1 ≤ n) (hmost : n ≤ 16) :
    doReadRecords n s = (s, .done (.records (fitting 1010 (s.rate.queue.take n)) s.rate.queue.length
      (oldestSeq s) s.rate.seq (countState .closing s))) := by
  have hgood : (1 ≤ n && n ≤ 16) = true := by simp [hone, hmost]
  rw [doReadRecords, if_pos hgood]
  rfl

theorem doReadRecords_of_bad (s : State) (h : n = 0 ∨ 16 < n) :
    doReadRecords n s = (s, .refuse .badField .none) := by
  have hbad : ¬ (1 ≤ n && n ≤ 16) = true := by
    rw [Bool.and_eq_true, decide_eq_true_eq, decide_eq_true_eq]
    omega
  rw [doReadRecords, if_neg hbad, refuse]

end ReadRecords

/-! ### What moving a CLOSING call's record in can do (R16, R167) -/

theorem contexts_joinFree (i : Nat) (s : State) : (joinFree i s).ctx.contexts = s.ctx.contexts := by
  unfold joinFree
  split
  · rfl
  · rw [recheck_ctx]

/-- A freed context is no longer in use, and every other is as it was (R16). -/
theorem contextAt_freeContext_none (i j : Nat) (s : State) :
    contextAt (freeContext i none s) j = if i = j then none else contextAt s j := by
  unfold freeContext
  split
  next hfree =>
    split
    next hij => exact hij ▸ hfree
    next => rfl
  next c _ =>
    simp only [contextAt, contexts_joinFree, dropContext, recheck_ctx, engineCheck_ctx, releaseCircuits_ctx,
      leaveHeld_ctx, Table.find_del]

/-- Between `s` and `t` records have joined the queue and contexts have been freed, and only notices were sent. -/
structure MovedIn (s t : State) : Prop where
  link : s.link.GainsOnly Message.isNotice t.link
  queue : s.rate.queue <+: t.rate.queue
  carriers : t.rate.carriers = s.rate.carriers
  watermark : t.rate.watermark = s.rate.watermark
  num : t.num = s.num
  sel : t.sel = s.sel
  gap : t.gap = s.gap
  time : t.time = s.time
  pending : t.pending = s.pending
  free : ∀ i, contextAt s i = none → contextAt t i = none

namespace MovedIn

variable {s t u : State}

theorem refl (s : State) : MovedIn s s :=
  ⟨.refl _ _, ⟨[], List.append_nil _⟩, rfl, rfl, rfl, rfl, rfl, rfl, rfl, fun _ => id⟩

theorem trans (h : MovedIn s t) (k : MovedIn t u) : MovedIn s u :=
  ⟨h.link.trans k.link, h.queue.trans k.queue, k.carriers.trans h.carriers, k.watermark.trans h.watermark,
    k.num.trans h.num, k.sel.trans h.sel, k.gap.trans h.gap, k.time.trans h.time, k.pending.trans h.pending,
    fun i hi => k.free i (h.free i hi)⟩

end MovedIn

theorem movedIn_recheck (c : Condition) (s : State) : MovedIn s (recheck c s) := by
  refine ⟨recheck_gains c s, ?_, ?_, ?_, ?_, ?_, ?_, ?_, ?_, fun i => ?_⟩ <;> simp [contextAt]

theorem enterRecord_rate (r : RecordBody) (s : State) :
    (enterRecord r s).rate =
      { s.rate with queue := s.rate.queue ++ [⟨s.rate.seq, r⟩], seq := s.rate.seq + 1 } :=
  recheck_rate _ _

theorem movedIn_enterRecord (r : RecordBody) (s : State) : MovedIn s (enterRecord r s) := by
  refine ⟨enterRecord_gains r s, ?_, ?_, ?_, ?_, ?_, ?_, ?_, ?_, fun i => ?_⟩ <;> simp [enterRecord_rate, contextAt]

theorem movedIn_freeContext (i : Nat) (s : State) : MovedIn s (freeContext i none s) := by
  refine ⟨freeContext_none_gains i s, ?_, ?_, ?_, ?_, ?_, ?_, ?_, ?_, fun j hj => ?free⟩
  case free => rw [contextAt_freeContext_none, hj, ite_self]
  all_goals simp

theorem moveIn_of_record {i : Nat} {c : Context} {r : RecordBody} {s : State} (hc : contextAt s i = some c)
    (hr : c.pendingRecord = some r) : moveIn i s = freeContext i none (enterRecord r s) := by
  simp only [moveIn, hc, hr]

theorem movedIn_moveIn (i : Nat) (s : State) : MovedIn s (moveIn i s) := by
  unfold moveIn
  split
  next =>
    split
    next r _ => exact (movedIn_enterRecord r s).trans (movedIn_freeContext i _)
    next => exact .refl s
  next => exact .refl s

theorem movedIn_foldl (l : List Nat) (s : State) : MovedIn s (l.foldl (fun v i => moveIn i v) s) := by
  induction l generalizing s with
  | nil => exact .refl s
  | cons i t ih => exact (movedIn_moveIn i s).trans (ih _)

/-! ### DISCARD RECORDS (R167, R169) -/

section DiscardRecords

variable {first : BitVec 32} {n : Nat}

theorem oldestSeq_cons {s : State} {r : Record} {rest : List Record} (h : s.rate.queue = r :: rest) :
    oldestSeq s = some r.seq := by
  rw [oldestSeq, h]
  rfl

theorem discardRefusal_of_mismatch {s : State} (h : ∃ r rest, s.rate.queue = r :: rest ∧ r.seq ≠ first) :
    discardRefusal first n s = some (.mismatch, .oldest (oldestSeq s) s.rate.queue.length) := by
  obtain ⟨r, rest, hqueue, hne⟩ := h
  simp [discardRefusal, oldestSeq_cons hqueue, hne]

/-- Where the oldest record bears the number given, only the count can be refused. -/
theorem discardRefusal_of_match {s : State} (h : ∀ r ∈ s.rate.queue.head?, r.seq = first) :
    discardRefusal first n s = if s.rate.queue.length < n then some (.badField, .none) else none := by
  cases hqueue : s.rate.queue with
  | nil => simp [discardRefusal, oldestSeq, hqueue]
  | cons r rest =>
    have hseq : r.seq = first := h r (hqueue ▸ rfl)
    simp [discardRefusal, oldestSeq_cons hqueue, hseq, hqueue]

theorem doDiscardRecords_of_bad_count (s : State) (h : n < 1 ∨ 2048 < n) :
    doDiscardRecords first n s = (s, .refuse .badField .none) := by
  have hbad : ¬ (1 ≤ n && n ≤ Config.settlementPlaces) = true := by
    rw [Bool.and_eq_true, decide_eq_true_eq, decide_eq_true_eq, Config.settlementPlaces]
    omega
  rw [doDiscardRecords, if_neg hbad, refuse]

theorem doDiscardRecords_of_good_count (s : State) (hone : 1 ≤ n) (hmost : n ≤ 2048) :
    (∀ cause figures, discardRefusal first n s = some (cause, figures) →
      doDiscardRecords first n s = (s, .refuse cause figures)) ∧
    (discardRefusal first n s = none → doDiscardRecords first n s = discard n s) := by
  have hgood : (1 ≤ n && n ≤ Config.settlementPlaces) = true := by simp [hone, hmost, Config.settlementPlaces]
  rw [doDiscardRecords, if_pos hgood]
  exact ⟨fun _ _ h => by rw [h], fun h => by rw [h]⟩

/-- The state in which the CLOSING calls move in: the oldest records gone. -/
def withoutOldest (n : Nat) (s : State) : State := { s with rate := { s.rate with queue := s.rate.queue.drop n } }

/-- The CLOSING calls that move in: one for each free place, from the head of their list. -/
def movers (n : Nat) (s : State) : List Nat := s.ctx.closing.take (settlementRoom (withoutOldest n s))

/-- The state that an accepted DISCARD RECORDS leaves, before its reply. -/
def afterDiscard (n : Nat) (s : State) : State :=
  recheck .settlementBacklog ((movers n s).foldl (fun v i => moveIn i v) (withoutOldest n s))

theorem length_movers (n : Nat) (s : State) :
    (movers n s).length = min (2048 - (s.rate.queue.length - n)) s.ctx.closing.length := by
  rw [movers, List.length_take, settlementRoom, withoutOldest, List.length_drop, Config.settlementPlaces]

theorem discard_eq (n : Nat) (s : State) :
    discard n s = (afterDiscard n s, .done (.discarded n
      (min (2048 - (s.rate.queue.length - n)) s.ctx.closing.length) (afterDiscard n s).rate.queue.length
      (oldestSeq (afterDiscard n s)) (countState .closing (afterDiscard n s)))) := by
  rw [← length_movers]
  rfl

theorem movedIn_afterDiscard (n : Nat) (s : State) : MovedIn (withoutOldest n s) (afterDiscard n s) :=
  (movedIn_foldl _ _).trans (movedIn_recheck _ _)

/-- With no call CLOSING the queue and the link alone change. -/
theorem afterDiscard_of_no_closing {s : State} (h : s.ctx.closing = []) :
    afterDiscard n s = { withoutOldest n s with link := (afterDiscard n s).link } := by
  have hafter : afterDiscard n s = recheck .settlementBacklog (withoutOldest n s) := by
    rw [afterDiscard, movers, h, List.take_nil, List.foldl_nil]
  rw [hafter]
  exact TimeAndAgreements.recheck_frame _ _

/-- The first CLOSING call's record stands behind the records left, and its context is free. -/
theorem afterDiscard_of_closing {s : State} {i : Nat} {later : List Nat} {c : Context} {body : RecordBody}
    (hone : 1 ≤ n) (hheld : n ≤ s.rate.queue.length) (hmost : s.rate.queue.length ≤ 2048)
    (hclosing : s.ctx.closing = i :: later) (hc : contextAt s i = some c) (hbody : c.pendingRecord = some body) :
    s.rate.queue.drop n ++ [⟨s.rate.seq, body⟩] <+: (afterDiscard n s).rate.queue ∧
      contextAt (afterDiscard n s) i = none := by
  have hroom : settlementRoom (withoutOldest n s) = 2047 - (s.rate.queue.length - n) + 1 := by
    rw [settlementRoom, withoutOldest, List.length_drop, Config.settlementPlaces]
    omega
  have hafter : afterDiscard n s = recheck .settlementBacklog
      ((later.take (2047 - (s.rate.queue.length - n))).foldl (fun v j => moveIn j v)
        (moveIn i (withoutOldest n s))) := by
    rw [afterDiscard, movers, hclosing, hroom, List.take_succ_cons, List.foldl_cons]
  have hrest : MovedIn (moveIn i (withoutOldest n s)) (afterDiscard n s) :=
    hafter ▸ (movedIn_foldl _ _).trans (movedIn_recheck _ _)
  rw [moveIn_of_record (s := withoutOldest n s) hc hbody] at hrest
  refine ⟨?_, hrest.free i ?_⟩
  · have hqueue := hrest.queue
    rwa [freeContext_rate, enterRecord_rate] at hqueue
  · rw [contextAt_freeContext_none, if_pos rfl]

/-- What an accepted DISCARD RECORDS does (R167, R169). -/
theorem doDiscardRecords_of_accepted {s : State} (hone : 1 ≤ n) (hheld : n ≤ s.rate.queue.length)
    (hmost : s.rate.queue.length ≤ 2048) (holdest : ∀ r ∈ s.rate.queue.head?, r.seq = first) :
    ∃ u, doDiscardRecords first n s = (u, .done (.discarded n
        (min (2048 - (s.rate.queue.length - n)) s.ctx.closing.length) u.rate.queue.length (oldestSeq u)
        (countState .closing u))) ∧
      MovedIn (withoutOldest n s) u ∧
      (s.ctx.closing = [] → u = { withoutOldest n s with link := u.link }) ∧
      ∀ i later c body, s.ctx.closing = i :: later → contextAt s i = some c → c.pendingRecord = some body →
        s.rate.queue.drop n ++ [⟨s.rate.seq, body⟩] <+: u.rate.queue ∧ contextAt u i = none := by
  obtain ⟨-, haccepted⟩ := doDiscardRecords_of_good_count (first := first) s hone (Nat.le_trans hheld hmost)
  have hpasses := (discardRefusal_of_match holdest).trans (if_neg (Nat.not_lt.2 hheld))
  exact ⟨afterDiscard n s, (haccepted hpasses).trans (discard_eq n s), movedIn_afterDiscard n s,
    afterDiscard_of_no_closing, fun _ _ _ _ => afterDiscard_of_closing hone hheld hmost⟩

theorem exec_discardRecords (tag : Tag) (first : BitVec 32) (n : Nat) (s : State) :
    exec (.discardRecords tag first n) s =
      request (.discardRecords tag first n) 57 tag (doDiscardRecords first n) s := rfl

theorem exec_discardRecords_of_refused {tag : Tag} {s : State} {cause : Cause} {figures : Figures}
    (hready : ready 57 tag s = true)
    (hact : doDiscardRecords first n s.atTaking = (s.atTaking, .refuse cause figures)) :
    exec (.discardRecords tag first n) s = .next (s.answers tag (.refuse cause figures)) :=
  (exec_discardRecords tag first n s).trans <| TimeAndAgreements.request_of_unchanged (by decide) hready hact

end DiscardRecords

/-- Settles O25: READ RECORDS gives what fits; DISCARD RECORDS is refused by its count, its number or its store, or
moves the CLOSING calls' records in behind those left. -/
theorem recordsAreReadAndDiscarded : Obligations.RecordsAreReadAndDiscarded := by
  refine ⟨fun tag first n s hready => ⟨fun hbad => ?_, fun hone hmost hother => ?_, fun hone hmost hshort holdest => ?_,
    fun hone hheld hmost holdest => ?_⟩, fun tag n s hready hone hmost => ?_, fun tag n s hready hbad => ?_⟩
  · exact exec_discardRecords_of_refused hready (doDiscardRecords_of_bad_count s.atTaking hbad)
  · obtain ⟨hrefused, -⟩ := doDiscardRecords_of_good_count (first := first) s.atTaking hone hmost
    exact exec_discardRecords_of_refused hready
      (hrefused _ _ (discardRefusal_of_mismatch (s := s.atTaking) hother))
  · obtain ⟨hrefused, -⟩ := doDiscardRecords_of_good_count (first := first) s.atTaking hone hmost
    exact exec_discardRecords_of_refused hready
      (hrefused _ _ ((discardRefusal_of_match (s := s.atTaking) holdest).trans (if_pos hshort)))
  · obtain ⟨u, hact, hmoved, hnone, hfirst⟩ :=
      doDiscardRecords_of_accepted (s := s.atTaking) hone hheld hmost holdest
    have hexec := (exec_discardRecords tag first n s).trans (request_of_ready (by decide) hready)
    rw [hact] at hexec
    refine ⟨_, hexec, noticesThenReply_of hmoved.link, hmoved.carriers, hmoved.watermark, hmoved.num, hmoved.sel,
      hmoved.gap, hmoved.time, hmoved.pending, fun h => ?_, hfirst⟩
    rw [hnone h]
    rfl
  · obtain ⟨more, happend, hfits, hnext⟩ := exists_append_fitting 1010 (s.rate.queue.take n)
    have hact := doReadRecords_of_good s.atTaking hone hmost
    exact ⟨_, more, _,
      (exec_readRecords tag n s).trans (TimeAndAgreements.request_of_unchanged (by decide) hready hact),
      happend, rfl, hfits, hnext⟩
  · exact (exec_readRecords tag n s).trans
      (TimeAndAgreements.request_of_unchanged (by decide) hready (doReadRecords_of_bad s.atTaking hbad))

end Sys2Proof.Settlement

/-! PROOF. The link's own requests and notices (11): STATUS and its CLEAR (R197), NOTICE ENABLE and NOTICE DISABLE
(R195), and what becomes of a notice (R194). -/

namespace Sys2Proof.LinkRequests

open Sys2Proof Sys2Proof.Machine

/-! ### STATUS (R197) -/

section Status

variable {tag : Tag} {s : State}

theorem exec_status_of_ready (clear : Named Bool) (hready : ready 80 tag s = true) :
    exec (.status tag clear) s =
      .next (sendReply tag (doStatus clear s.atTaking).2 (doStatus clear s.atTaking).1) :=
  request_of_ready (by decide) hready

/-- CLEAR and the reply touch different fields of the link, so their order does not show. -/
theorem sendReply_clearLinkCounters (r : Reply) :
    sendReply tag r (clearLinkCounters s.atTaking) = clearLinkCounters (s.answers tag r) :=
  congrArg clearLinkCounters (sendReply_atTaking tag r s)

/-- Every context in use is in one of the five call states (R19). -/
theorem sum_countP_callState (l : Table Context) :
    l.countP (fun e => e.2.state == .queued) + l.countP (fun e => e.2.state == .routed) +
      l.countP (fun e => e.2.state == .alerting) + l.countP (fun e => e.2.state == .answered) +
      l.countP (fun e => e.2.state == .closing) = l.length := by
  induction l with
  | nil => rfl
  | cons e t ih =>
    simp only [List.countP_cons, List.length_cons, ← ih]
    cases e.2.state <;> simp <;> omega

end Status

/-- Settles O12: the reply is formed before CLEAR clears, so all three commands show the state at the taking. -/
theorem statusShowsAndClears : Obligations.StatusShowsAndClears := by
  intro tag s hready
  refine ⟨statusView s.atTaking, ?keep, ?clear, ?bad, rfl, rfl, rfl, rfl, rfl, rfl, rfl, rfl,
    sum_countP_callState s.ctx.contexts, rfl, rfl, rfl, rfl, rfl, rfl, rfl, rfl, rfl, rfl, ?buffer, rfl, rfl, rfl, rfl,
    rfl, rfl⟩
  case keep => rw [exec_status_of_ready _ hready, doStatus, done, sendReply_atTaking]
  case clear => rw [exec_status_of_ready _ hready, doStatus, done, sendReply_clearLinkCounters]; rfl
  case bad => rw [exec_status_of_ready _ hready, doStatus, refuse, sendReply_atTaking]
  case buffer => exact List.length_tail

/-! ### NOTICE ENABLE and NOTICE DISABLE (R195) -/

section Classes

variable {tag : Tag} {s : State}

/-- The enabled set with the classes of a list present or absent. -/
def classesAfter (present : Bool) (l enabled : List NoticeClass) : List NoticeClass :=
  l.foldl (fun set c => putInSet NoticeClass.all c present set) enabled

theorem mem_putInSet_classes (c x : NoticeClass) (present : Bool) (set : List NoticeClass) :
    c ∈ putInSet NoticeClass.all x present set ↔ if c = x then present = true else c ∈ set := by
  have hall : c ∈ NoticeClass.all := by cases c <;> decide
  by_cases hx : c = x
  · subst hx
    simp [putInSet, hall]
  · simp [putInSet, hall, hx]

theorem mem_classesAfter_present (c : NoticeClass) (l enabled : List NoticeClass) :
    c ∈ classesAfter true l enabled ↔ c ∈ enabled ∨ c ∈ l := by
  induction l generalizing enabled with
  | nil => simp [classesAfter]
  | cons x t ih =>
    rw [classesAfter, List.foldl_cons, ← classesAfter, ih, mem_putInSet_classes, List.mem_cons]
    by_cases hx : c = x <;> simp [hx]

theorem mem_classesAfter_absent (c : NoticeClass) (l enabled : List NoticeClass) :
    c ∈ classesAfter false l enabled ↔ c ∈ enabled ∧ c ∉ l := by
  induction l generalizing enabled with
  | nil => simp [classesAfter]
  | cons x t ih =>
    rw [classesAfter, List.foldl_cons, ← classesAfter, ih, mem_putInSet_classes, List.mem_cons]
    by_cases hx : c = x <;> simp [hx]

theorem doNotices_of_named (present : Bool) (l : List NoticeClass) (s : State) :
    doNotices present (l.map some) s =
      ({ s with link := { s.link with enabled := classesAfter present l s.link.enabled } },
        .done (.notices (classesAfter present l s.link.enabled) s.link.conditions)) := by
  rw [doNotices, TimeAndAgreements.allNamed_map_some]
  rfl

theorem doNotices_of_unnamed {classes : List (Named NoticeClass)} (present : Bool) (s : State) (h : none ∈ classes) :
    doNotices present classes s = (s, .refuse .badField .none) := by
  rw [doNotices, TimeAndAgreements.allNamed_of_none_mem h, refuse]

/-- The one reply of a request that changed the enabled set. -/
theorem request_of_classes {c : Instr} {kind : Byte} (present : Bool) (l : List NoticeClass) (hk : kind ≠ 84)
    (hready : ready kind tag s = true) :
    request c kind tag (doNotices present (l.map some)) s = .next { s with
      link := { s.link.answered tag (.done (.notices (classesAfter present l s.link.enabled) s.link.conditions)) with
        enabled := classesAfter present l s.link.enabled } } := by
  rw [request_of_ready hk hready, doNotices_of_named]
  exact congrArg (fun u : State => Host.Outcome.next
    { u with link := { u.link with enabled := classesAfter present l s.link.enabled } }) (sendReply_atTaking tag _ s)

theorem request_of_unnamed_class {c : Instr} {kind : Byte} {classes : List (Named NoticeClass)} (present : Bool)
    (hk : kind ≠ 84) (h : none ∈ classes) (hready : ready kind tag s = true) :
    request c kind tag (doNotices present classes) s = .next (s.answers tag (.refuse .badField .none)) :=
  TimeAndAgreements.request_of_unchanged hk hready (doNotices_of_unnamed present s.atTaking h)

end Classes

/-! ### A notice (R194) -/

theorem notice_eq (n : Notice) (l : Link) :
    l.notice n =
      if n.classOf ∉ l.enabled then l
      else if 64 < 512 - (l.outQueue.length + l.reserved) then { l with outQueue := l.outQueue ++ [.notice n] }
      else { l with noticesLost := min 4294967295 (l.noticesLost + 1) } := by
  by_cases henabled : n.classOf ∈ l.enabled
  · rw [Link.notice, if_pos (List.contains_iff_mem.2 henabled), if_neg (not_not_intro henabled)]
    rfl
  · rw [Link.notice, if_neg (mt List.contains_iff_mem.1 henabled), if_pos henabled]

/-- Settles O30: the two requests as set operations, their refusals, and the handling of a notice by its class. -/
theorem noticeClassesAreSet : Obligations.NoticeClassesAreSet := by
  refine ⟨fun tag classes s hready => ⟨classesAfter true classes s.link.enabled, fun c => ?_, ?_⟩,
    fun tag classes s hready => ⟨classesAfter false classes s.link.enabled, fun c => ?_, ?_⟩,
    fun tag classes s hnone => ⟨?_, ?_⟩, fun n l => ⟨notice_eq n l, ?_⟩⟩
  · exact mem_classesAfter_present c classes s.link.enabled
  · exact request_of_classes true classes (by decide) hready
  · exact mem_classesAfter_absent c classes s.link.enabled
  · exact request_of_classes false classes (by decide) hready
  · exact request_of_unnamed_class true (by decide) hnone
  · exact request_of_unnamed_class false (by decide) hnone
  · cases n <;> rfl

end Sys2Proof.LinkRequests

/-! PROOF. The frame receiver (11): one byte at a time, what the bytes of a frame, of a bad length and of a sync pair
leave of the receiver, and what a partial frame leaves once its limit has passed (R190, R191). -/

namespace Sys2Proof.FrameReceiver

open Sys2Proof Sys2Proof.Machine

section

variable {time last : Nat} {old bytes : List Byte} {saw : Bool} {l : Link} {s : State}

/-! ### The inter-byte limit (R190) -/

theorem dropOverdue_of_hunting (time : Nat) (h : l.rx = .hunting saw) : l.dropOverdue time = l := by
  simp [Link.dropOverdue, Receiver.overdue, h]

theorem dropOverdue_of_assembling (time : Nat) (h : l.rx = .assembling old last) :
    l.dropOverdue time = if last + 10 ≤ time then { l with
      rx := .hunting false, checkErrors := min 4294967295 (l.checkErrors + 1) } else l := by
  simp only [Link.dropOverdue, Receiver.overdue, h, decide_eq_true_eq]
  rfl

theorem dropOverdue_of_early (h : l.rx = .assembling old last) (hearly : time < last + 10) :
    l.dropOverdue time = l := by
  rw [dropOverdue_of_assembling time h, if_neg (Nat.not_le.2 hearly)]

/-- Once a partial frame is dropped there is none to drop. -/
theorem dropOverdue_dropOverdue (time : Nat) (l : Link) :
    (l.dropOverdue time).dropOverdue time = l.dropOverdue time := by
  cases hrx : l.rx with
  | hunting saw => rw [dropOverdue_of_hunting time hrx, dropOverdue_of_hunting time hrx]
  | assembling old last =>
    rw [dropOverdue_of_assembling time hrx]
    split
    next => exact dropOverdue_of_hunting time rfl
    next hearly => rw [dropOverdue_of_assembling time hrx, if_neg hearly]

/-! ### One byte (R190) -/

theorem takeByte_of_hunting (time : Nat) (b : Byte) (h : l.rx = .hunting saw) :
    l.takeByte time b = { l with rx := huntByte time saw b } := by
  rw [Link.takeByte, dropOverdue_of_hunting time h, Link.joinByte, h]

theorem takeByte_of_assembling (b : Byte) (h : l.rx = .assembling old last) (hearly : time < last + 10) :
    l.takeByte time b = l.assembled time (old ++ [b]) := by
  rw [Link.takeByte, dropOverdue_of_early h hearly, Link.joinByte, h]

/-- The first of some bytes drops an overdue frame, so it may as well have been dropped before. -/
theorem foldl_takeByte_dropOverdue (time : Nat) (b : Byte) (bytes : List Byte) (l : Link) :
    (b :: bytes).foldl (Link.takeByte time) (l.dropOverdue time) = (b :: bytes).foldl (Link.takeByte time) l := by
  simp only [List.foldl_cons, Link.takeByte, dropOverdue_dropOverdue]

theorem receive_of_released (bytes : List Byte) (h : s.link.resetLine = false) :
    receive bytes s = { s with link := bytes.foldl (Link.takeByte s.time.count) s.link } := by
  rw [receive, h, if_neg Bool.false_ne_true]

theorem receive_of_reset (bytes : List Byte) (h : s.link.resetLine = true) : receive bytes s = s := by
  rw [receive, if_pos h]

/-! ### The sync pair (R190) -/

/-- A hunting receiver that meets the pair assembles, whatever byte came before the pair. -/
theorem foldl_takeByte_syncPair (time : Nat) (h : l.rx = .hunting saw) :
    [sync1, sync2].foldl (Link.takeByte time) l = { l with rx := .assembling [] time } := by
  have hfirst : huntByte time saw sync1 = .hunting true := by
    cases saw <;> rfl
  simp only [List.foldl_cons, List.foldl_nil]
  rw [takeByte_of_hunting time sync1 h, hfirst, takeByte_of_hunting time sync2 rfl]
  rfl

theorem exec_syncPairFound_of_hunting (hline : s.link.resetLine = false) (h : s.link.rx = .hunting saw) :
    exec .syncPairFound s = .next { s with link := { s.link with rx := .assembling [] s.time.count } } := by
  have hhunts : (s.link.dropOverdue s.time.count).rx.isHunting = true := by
    rw [dropOverdue_of_hunting _ h, h]
    rfl
  show execSyncPairFound s = _
  rw [execSyncPairFound, if_pos hhunts, receive_of_released _ hline, foldl_takeByte_syncPair _ h]

/-! ### A bad length (R190) -/

theorem word16_extract (n : BitVec 16) : word16 (n.extractLsb' 8 8) (n.extractLsb' 0 8) = n := by
  refine BitVec.eq_of_getLsbD_eq fun i hi => ?_
  simp only [word16, BitVec.getLsbD_append, BitVec.getLsbD_extractLsb']
  by_cases hlow : i < 8
  · simp [hlow]
  · simp only [hlow, if_false]
    rw [decide_eq_true (by omega : i - 8 < 8), Bool.true_and, Nat.add_sub_cancel' (by omega : 8 ≤ i)]

/-- A length is itself a sync pair exactly when its bytes are the two sync bytes. -/
theorem eq_syncPair_iff (n : BitVec 16) :
    n = 0xD26C#16 ↔ n.extractLsb' 8 8 = sync1 ∧ n.extractLsb' 0 8 = sync2 := by
  constructor
  · rintro rfl
    decide
  · rintro ⟨hhi, hlo⟩
    rw [← word16_extract n, hhi, hlo]
    decide

/-- The receiver after a bad length: it hunts through the second sync byte and the two length bytes (log 21). -/
theorem huntBytes_length (time : Nat) (n : BitVec 16) :
    huntBytes time [sync2, n.extractLsb' 8 8, n.extractLsb' 0 8] =
      if n = 0xD26C#16 then .assembling [] time else .hunting (n.extractLsb' 0 8 == 0xD2#8) := by
  have hlast : huntBytes time [sync2, n.extractLsb' 8 8, n.extractLsb' 0 8] =
      huntByte time (n.extractLsb' 8 8 == sync1) (n.extractLsb' 0 8) := rfl
  simp only [hlast, huntByte, eq_syncPair_iff, Bool.and_eq_true, beq_iff_eq]
  rfl

/-- With one byte of the length taken nothing is judged yet. -/
theorem assembled_singleton (time : Nat) (b : Byte) (l : Link) :
    l.assembled time [b] = { l with rx := .assembling [b] time } := rfl

theorem exec_badLength_of_atLength {n : BitVec 16} (hline : s.link.resetLine = false)
    (h : s.link.rx = .assembling [] last) (hearly : s.time.count < last + 10) (hbad : 1024 < n.toNat) :
    exec (.badLength n) s = .next { s with link := { s.link with
      checkErrors := min 4294967295 (s.link.checkErrors + 1),
      rx := if n = 0xD26C#16 then .assembling [] s.time.count else .hunting (n.extractLsb' 0 8 == 0xD2#8) } } := by
  have hat : (s.link.dropOverdue s.time.count).rx.atLength = true := by
    rw [dropOverdue_of_early h hearly, h]
    rfl
  have hlength : Config.maxBody < (word16 (n.extractLsb' 8 8) (n.extractLsb' 0 8)).toNat := by
    rw [word16_extract]
    exact hbad
  show execBadLength n s = _
  rw [execBadLength, if_pos ⟨hat, hbad⟩, receive_of_released _ hline]
  simp only [List.foldl_cons, List.foldl_nil]
  rw [takeByte_of_assembling _ h hearly, List.nil_append, assembled_singleton,
    takeByte_of_assembling _ rfl (Nat.lt_add_of_pos_right (by decide)), List.singleton_append, Link.assembled,
    if_pos hlength, Link.badLength, huntBytes_length]
  rfl

/-! ### The bytes of a frame (R190, R191) -/

/-- The bytes of a frame from its length field on: the length is good, and the bytes are as many as it says. -/
def IsWhole (frame : List Byte) : Prop :=
  ∃ hi lo rest, frame = hi :: lo :: rest ∧ (word16 hi lo).toNat ≤ Config.maxBody ∧
    frame.length = 7 + (word16 hi lo).toNat

/-- The last byte of a frame completes it. -/
theorem assembled_of_whole (time : Nat) (l : Link) (h : IsWhole bytes) : l.assembled time bytes = l.complete bytes := by
  obtain ⟨hi, lo, rest, rfl, hgood, hlength⟩ := h
  rw [Link.assembled, if_neg (Nat.not_lt.2 hgood), if_pos hlength]

/-- An earlier byte leaves the receiver assembling. -/
theorem assembled_of_partial (time : Nat) (l : Link) {b : Byte} (h : IsWhole (old ++ b :: bytes)) :
    l.assembled time old = { l with rx := .assembling old time } := by
  obtain ⟨hi, lo, rest, hframe, hgood, hlength⟩ := h
  match old with
  | [] => rfl
  | [_] => rfl
  | x :: y :: more =>
    simp only [List.cons_append, List.cons.injEq] at hframe
    obtain ⟨rfl, rfl, -⟩ := hframe
    have hshort : (x :: y :: more).length ≠ 7 + (word16 x y).toNat := by
      rw [List.length_append, List.length_cons (a := b)] at hlength
      omega
    rw [Link.assembled, if_neg (Nat.not_lt.2 hgood), if_neg hshort]

/-- The rest of a frame, given byte by byte at one instant, completes it. -/
theorem foldl_takeByte_of_whole (h : l.rx = .assembling old last) (hearly : time < last + 10) (hne : bytes ≠ [])
    (hwhole : IsWhole (old ++ bytes)) : bytes.foldl (Link.takeByte time) l = l.complete (old ++ bytes) := by
  induction bytes generalizing old last l with
  | nil => exact absurd rfl hne
  | cons b rest ih =>
    rw [List.foldl_cons, takeByte_of_assembling b h hearly]
    cases rest with
    | nil => exact assembled_of_whole time l hwhole
    | cons c more =>
      have hsplit : old ++ b :: c :: more = old ++ [b] ++ c :: more := List.append_cons old b (c :: more)
      rw [hsplit] at hwhole ⊢
      rw [assembled_of_partial time l hwhole]
      exact ih rfl (Nat.lt_add_of_pos_right (by decide)) (List.cons_ne_nil c more) hwhole

section Frame

variable (hi lo kind t1 t0 c1 c0 : Byte) (body : List Byte)

/-- The bytes of a frame: length, kind, tag and body, then the check (11, section 11.9). -/
theorem frame_eq_append_check : hi :: lo :: kind :: t1 :: t0 :: (body ++ [c1, c0]) =
    (hi :: lo :: kind :: t1 :: t0 :: body) ++ [c1, c0] := rfl

theorem checkGood_frame : checkGood (hi :: lo :: kind :: t1 :: t0 :: (body ++ [c1, c0])) =
    (crcOf (hi :: lo :: kind :: t1 :: t0 :: body) == word16 c1 c0) := by
  rw [frame_eq_append_check, checkGood, checkOf, List.length_append, List.length_cons (as := [c0]),
    List.length_singleton, Nat.add_sub_cancel, List.take_left, List.drop_left]

theorem frameOf_frame : frameOf (hi :: lo :: kind :: t1 :: t0 :: (body ++ [c1, c0])) =
    some ⟨kind, word16 t1 t0, body⟩ := by
  simp [frameOf]

/-- What a whole frame leaves of the link: a frame more, an overrun more, or a check error more. -/
theorem complete_frame (l : Link) : l.complete (hi :: lo :: kind :: t1 :: t0 :: (body ++ [c1, c0])) =
    if crcOf (hi :: lo :: kind :: t1 :: t0 :: body) = word16 c1 c0 then
      if l.inBuf.length < 64 then
        { l with rx := .hunting false, inBuf := l.inBuf ++ [⟨kind, word16 t1 t0, body⟩] }
      else { l with rx := .hunting false, overruns := min 4294967295 (l.overruns + 1) }
    else { l with rx := .hunting false, checkErrors := min 4294967295 (l.checkErrors + 1) } := by
  simp only [Link.complete, checkGood_frame, frameOf_frame, beq_iff_eq]
  rfl

theorem isWhole_frame (hlength : body.length = (word16 hi lo).toNat) (hgood : body.length ≤ 1024) :
    IsWhole (hi :: lo :: kind :: t1 :: t0 :: (body ++ [c1, c0])) := by
  refine ⟨hi, lo, _, rfl, hlength ▸ hgood, ?_⟩
  simp only [List.length_cons, List.length_append, List.length_nil, ← hlength]
  omega

end Frame

end

/-! ### The statement -/

/-- Settles O6: the pair, a bad length, a partial frame at its limit, and the bytes that end a frame. -/
theorem receiverTurnsBytesIntoFrames : Obligations.ReceiverTurnsBytesIntoFrames := by
  refine ⟨⟨fun saw s => exec_syncPairFound_of_hunting, fun n last s => exec_badLength_of_atLength,
    fun bytes last s hrx => ?timeout, fun old last b bytes s t hline hrx hlate ht => ?late⟩,
    fun old bytes hi lo last body kind t1 t0 c1 c0 s hline hrx hearly hframe hne hlength hgood => ?frame⟩
  case timeout =>
    show execInterByteTimeout s = _
    rw [execInterByteTimeout, dropOverdue_of_assembling _ hrx]
    split <;> rfl
  case late =>
    have hdrop : t = { s with link := s.link.dropOverdue s.time.count } := by
      rw [ht, dropOverdue_of_assembling _ hrx, if_pos hlate]
    have hreceive (b : Byte) (bytes : List Byte) : receive (b :: bytes) s = receive (b :: bytes) t := by
      have hline' : t.link.resetLine = false := by rw [ht]; exact hline
      rw [receive_of_released _ hline, receive_of_released _ hline', hdrop, foldl_takeByte_dropOverdue]
    have hhunts : (s.link.dropOverdue s.time.count).rx.isHunting = true := by
      rw [dropOverdue_of_assembling _ hrx, if_pos hlate]
      rfl
    have hhunts' : (t.link.dropOverdue t.time.count).rx.isHunting = true := by
      rw [hdrop, dropOverdue_dropOverdue]
      exact hhunts
    refine ⟨congrArg Host.Outcome.next (hreceive b bytes), ?_⟩
    show execSyncPairFound s = execSyncPairFound t
    rw [execSyncPairFound, execSyncPairFound, if_pos hhunts, if_pos hhunts', hreceive]
  case frame =>
    have hwhole := isWhole_frame hi lo kind t1 t0 c1 c0 body hlength hgood
    rw [← hframe] at hwhole
    show execFrameReceived bytes s = _
    rw [execFrameReceived, receive_of_released _ hline, foldl_takeByte_of_whole hrx hearly hne hwhole, hframe,
      complete_frame]
    split
    · split <;> rfl
    · rfl

end Sys2Proof.FrameReceiver

/-! PROOF. How frames are taken (11): a frame waits or joins the buffer (R191), is answered REJECT (R192), or is acted
on and answered once. The blocks' part in that is one fact about each of them: while it acts it sends no reply, takes no
frame and moves no reserved place. -/

namespace Sys2Proof.FrameTaking

open Sys2Proof Sys2Proof.Machine

/-! ### A frame that cannot be taken (R191, R200) -/

section Waiting

variable {isMine : Frame → Bool} {f : Frame} {fault : Option RejectReason} {act : State → State} {s : State}

theorem arrive_of_reset (h : s.link.resetLine = true) : arrive isMine f s = s := by
  rw [arrive, h, Bool.true_or, if_pos rfl]

theorem arrive_of_released (h : s.link.resetLine = false) :
    arrive isMine f s =
      if s.link.inBuf.any isMine = true then s
      else if s.link.inBuf.length < 64 then { s with link := { s.link with inBuf := s.link.inBuf ++ [f] } }
      else { s with link := { s.link with overruns := min 4294967295 (s.link.overruns + 1) } } := by
  rw [arrive, h, Bool.false_or]
  by_cases hwaits : s.link.inBuf.any isMine = true
  · rw [if_pos hwaits, if_pos hwaits]
  · rw [if_neg hwaits, if_neg hwaits, Link.accept]
    split
    next hroom => exact (if_pos hroom).symm
    next hfull => exact (if_neg hfull).symm

theorem serveFrame_of_not (h : canTake isMine (placesNeeded f.kind) s = false) :
    serveFrame isMine f fault act s = arrive isMine f s := by
  rw [serveFrame_eq, h, if_neg Bool.false_ne_true]

theorem canTake_of_reset (places : Nat) (h : s.link.resetLine = true) : canTake isMine places s = false := by
  rw [canTake, h]
  rfl

theorem serveFrame_of_reset (h : s.link.resetLine = true) : serveFrame isMine f fault act s = s := by
  rw [serveFrame_of_not (canTake_of_reset _ h), arrive_of_reset h]

end Waiting

/-! ### A frame that is taken (R192) -/

/-- The state in which a request of so many places acts: its frame taken, the places reserved. -/
def takenFor (places : Nat) (s : State) : State :=
  { s with link := { s.link.taken with reserved := s.link.reserved + places } }

/-! The reserved places and the queue after the operations that use a place (R193). -/

theorem takenFor_reserved (places : Nat) (s : State) :
    (takenFor places s).link.reserved = s.link.reserved + places := rfl
theorem takenFor_outQueue (places : Nat) (s : State) : (takenFor places s).link.outQueue = s.link.outQueue := rfl
theorem sendReply_reserved (tag : Tag) (r : Reply) (s : State) :
    (sendReply tag r s).link.reserved = s.link.reserved - 1 := rfl
theorem sendReply_outQueue (tag : Tag) (r : Reply) (s : State) :
    (sendReply tag r s).link.outQueue = s.link.outQueue ++ [.reply tag r] := rfl
theorem sendReserved_reserved (m : Message) (s : State) :
    (sendReserved m s).link.reserved = s.link.reserved - 1 := rfl
theorem sendReserved_outQueue (m : Message) (s : State) :
    (sendReserved m s).link.outQueue = s.link.outQueue ++ [m] := rfl
theorem releasePlace_reserved (s : State) : (releasePlace s).link.reserved = s.link.reserved - 1 := rfl

/-- The state after a taken frame that was answered REJECT with nothing reserved. -/
def rejected (kind : Byte) (tag : Tag) (reason : RejectReason) (s : State) : State :=
  { s with link := { s.link.answered tag (.reject kind reason) with rejects := min 4294967295 (s.link.rejects + 1) } }

section Taken

variable {isMine : Frame → Bool} {f : Frame} {act : State → State} {s : State} {tag : Tag}

theorem serveFrame_of_fault {reason : RejectReason} (h : canTake isMine (placesNeeded f.kind) s = true)
    (hreserved : s.link.reserved = 0) :
    serveFrame isMine f (some reason) act s = rejected f.kind f.tag reason s := by
  rw [serveFrame_eq, if_pos h, rejected, Link.answered, hreserved]
  rfl

theorem serveFrame_of_good (h : canTake isMine (placesNeeded f.kind) s = true) :
    serveFrame isMine f none act s = act (takenFor (placesNeeded f.kind) s) := by
  rw [serveFrame_eq, if_pos h]
  rfl

/-- The reply alone was sent. -/
theorem oneReply_of_queue {t : State} {r : Reply} (hbuf : t.link.inBuf = s.link.inBuf.tail)
    (hreserved : t.link.reserved = 0) (hqueue : t.link.outQueue = s.link.outQueue ++ [.reply tag r]) :
    OneReply tag s t := by
  refine ⟨hbuf, hreserved, [], r, [], ?_, List.forall_mem_nil _⟩
  rw [hqueue, List.append_nil]

theorem oneReply_rejected (kind : Byte) (tag : Tag) (reason : RejectReason) (hreserved : s.link.reserved = 0) :
    OneReply tag s (rejected kind tag reason s) := oneReply_of_queue rfl hreserved rfl

end Taken

/-! ### Blocks that send no reply of their own -/

/-- Between `s` and `t` no frame was taken, no place was reserved or given up, and no reply was sent. -/
structure SendsNoReply (s t : State) : Prop where
  inBuf : t.link.inBuf = s.link.inBuf
  reserved : t.link.reserved = s.link.reserved
  queue : ∃ ms, t.link.outQueue = s.link.outQueue ++ ms ∧ ∀ m ∈ ms, m.isReply = false

namespace SendsNoReply

variable {s t : State}

theorem of_gains (h : s.link.GainsOnly (fun x => !x.isReply) t.link) : SendsNoReply s t := by
  obtain ⟨ms, hms, hreply⟩ := h.queue
  exact ⟨h.inBuf, h.reserved, ms, hms, fun m hm => Bool.not_eq_true' _ ▸ hreply m hm⟩

theorem of_notices (h : s.link.GainsOnly Message.isNotice t.link) : SendsNoReply s t := of_gains h.notices

theorem of_link (h : t.link = s.link) : SendsNoReply s t := of_gains ((Link.GainsOnly.refl _ _).since h)

theorem refl (s : State) : SendsNoReply s s := of_link rfl

theorem ite {p : Prop} [Decidable p] {x y : State × Reply} (hx : SendsNoReply s x.1) (hy : SendsNoReply s y.1) :
    SendsNoReply s (if p then x else y).1 := by
  split
  · exact hx
  · exact hy

/-- One place reserved, a block that sends no reply, then its reply: the reply is the only one. -/
theorem oneReply {u : State} (h : SendsNoReply (takenFor 1 s) u) (hreserved : s.link.reserved = 0) (tag : Tag)
    (r : Reply) : OneReply tag s (sendReply tag r u) := by
  obtain ⟨ms, hms, hreply⟩ := h.queue
  refine ⟨h.inBuf, ?_, ms, r, [], ?_, fun m hm => hreply m (List.append_nil ms ▸ hm)⟩
  · rw [sendReply_reserved, h.reserved, takenFor_reserved, hreserved]
  · rw [sendReply_outQueue, hms, takenFor_outQueue]

end SendsNoReply

/-! ### Requests about calls (01, 05) -/

section Calls

variable {ref : CallRef} {g k : Nat} {s : State}

theorem onCall_sendsNoReply {act : Nat → Context → State → State × Reply}
    (h : ∀ i c, SendsNoReply s (act i c s).1) : SendsNoReply s (onCall ref act s).1 := by
  unfold onCall
  split
  next => exact .refl s
  next i c _ => exact h i c

theorem onCurrentCircuit_sendsNoReply {act : Nat → Context → State → State × Reply}
    (h : ∀ i c, SendsNoReply s (act i c s).1) : SendsNoReply s (onCurrentCircuit ref g k act s).1 :=
  onCall_sendsNoReply fun i c => .ite (.refl s) (.ite (.refl s) (h i c))

theorem engineCheck_modifyContext_sendsNoReply (i : Nat) (f : Context → Context) (s : State) :
    SendsNoReply s (engineCheck (modifyContext i f s)) := .of_notices ((engineCheck_gains _).since rfl)

theorem doProceed_sendsNoReply (ref : CallRef) (g k : Nat) (s : State) : SendsNoReply s (doProceed ref g k s).1 :=
  .ite (onCurrentCircuit_sendsNoReply fun i _ => engineCheck_modifyContext_sendsNoReply i _ s) (.refl s)

theorem doAnswer_sendsNoReply (ref : CallRef) (s : State) : SendsNoReply s (doAnswer ref s).1 := by
  refine onCall_sendsNoReply fun i c => ?_
  cases c.state with
  | routed | alerting => exact engineCheck_modifyContext_sendsNoReply i _ s
  | queued | answered | closing => exact .refl s

theorem takeCrankback_sendsNoReply (cause : CrankCause) (i : Nat) (c : Context) (s : State) :
    SendsNoReply s (takeCrankback cause i c s).1 := by
  have hend := endAttempt_gains i c (.crankedBack cause) s
  cases cause with
  | unroutable => exact .of_notices (hend.trans (freeContext_none_gains i _))
  | congestion | circuitFault => exact .of_notices (hend.trans (selectAndReply_gains i _))

theorem doCrankback_sendsNoReply (ref : CallRef) (g k : Nat) (cause : Named CrankCause) (s : State) :
    SendsNoReply s (doCrankback ref g k cause s).1 := by
  cases cause with
  | none => exact .refl s
  | some x => exact .ite (onCurrentCircuit_sendsNoReply fun i c => takeCrankback_sendsNoReply x i c s) (.refl s)

theorem placeRecord_sendsNoReply (i : Nat) (c : Context) (r : RecordBody) (s : State) :
    SendsNoReply s (placeRecord i c r s) := by
  unfold placeRecord
  split
  · exact .of_notices ((enterRecord_gains r s).trans (freeContext_none_gains i _))
  · exact .of_notices ((recheck_gains _ _).after ((releaseCircuits_gains i c s).since rfl))

theorem doRelease_sendsNoReply (ref : CallRef) (s : State) : SendsNoReply s (doRelease ref s).1 := by
  refine onCall_sendsNoReply fun i c => ?_
  cases c.state with
  | queued | routed | alerting => exact .of_notices (freeContext_none_gains i s)
  | answered => exact placeRecord_sendsNoReply i c _ s
  | closing => exact .refl s

theorem doReadContext_sendsNoReply (ref : CallRef) (s : State) : SendsNoReply s (doReadContext ref s).1 :=
  onCall_sendsNoReply fun _ _ => .refl s

end Calls

/-! ### SETUP (R7, R8) -/

theorem gapCheck_link (prio : Nat) (called : List Nat) (s : State) : (gapCheck prio called s).1.link = s.link := by
  unfold gapCheck
  split
  · rfl
  · split
    · rfl
    · split <;> rfl

theorem refuseSetup_gains (i : Nat) (cause : Cause) (s : State) :
    s.link.GainsOnly Message.isNotice (refuseSetup i cause s).1.link := freeContext_none_gains i s

theorem setupStages_gains (i : Nat) (call : SetupCall) (s : State) :
    s.link.GainsOnly Message.isNotice (setupStages i call s).1.link := by
  unfold setupStages
  split
  next => exact refuseSetup_gains i _ s
  next => exact refuseSetup_gains i _ s
  next => exact (handFault_gains _ s).trans (refuseSetup_gains i _ _)
  next bank index list _ =>
    have hgap := gapCheck_link call.prio call.digits
      (modifyContext i (fun c => { c with matched := some (bank, index), routeList := some list }) s)
    split <;> rename_i t hcheck <;> rw [hcheck] at hgap
    · exact (selectAndReply_gains i t).since hgap
    · exact (refuseSetup_gains i _ t).since hgap

theorem admitSetup_gains (i : Nat) (call : SetupCall) (mark : MarkResult) (s : State) :
    s.link.GainsOnly (fun x => !x.isReply) (admitSetup i call mark s).1.link := by
  have hstages (t : State) : t.link.GainsOnly Message.isNotice (setupStages i call (allocate i call t)).1.link :=
    (allocate_gains i call t).trans (setupStages_gains i call _)
  cases mark with
  | refused => exact .refl _ _
  | granted => exact (hstages s).notices
  | lost x => exact (loseGlare_gains x s).trans (hstages _).notices

theorem doSetup_sendsNoReply (callId : CallId) (group circuit : BitVec 16) (numClass prio : Byte)
    (digits : List Byte) (s : State) : SendsNoReply s (doSetup callId group circuit numClass prio digits s).1 := by
  unfold doSetup
  split
  next => exact .refl s
  next call _ =>
    refine .ite ?_ (.refl s)
    split
    next => exact .refl s
    next i _ _ => exact .of_gains ((markIncoming_gains _ _ _ s).notices.trans (admitSetup_gains i call _ _))

/-! ### Requests on the tables (02, 03, 04, 07) -/

section Tables

variable {s : State}

theorem onEntry_sendsNoReply {bank : Named BankId} {index : Nat} {act : BankId → State → State × Reply}
    (h : ∀ k, SendsNoReply s (act k s).1) : SendsNoReply s (onEntry bank index act s).1 := by
  cases bank with
  | none => exact .refl s
  | some k => exact .ite (h k) (.refl s)

theorem doEntryWrite_sendsNoReply (bank : Named BankId) (index : Nat) (f : EntryFields) (s : State) :
    SendsNoReply s (doEntryWrite bank index f s).1 := by
  refine onEntry_sendsNoReply fun k => ?_
  cases f.adopt with
  | none => exact .refl s
  | some e => exact .ite (.refl s) (.of_link rfl)

theorem doEntryRead_sendsNoReply (bank : Named BankId) (index : Nat) (mode : Named ReadMode) (s : State) :
    SendsNoReply s (doEntryRead bank index mode s).1 := by
  refine onEntry_sendsNoReply fun k => ?_
  cases mode with
  | none => exact .refl s
  | some mode =>
    cases mode with
    | exact => exact .refl s
    | next =>
      dsimp only
      split
      · exact .refl s
      · exact .refl s

theorem doEntryDelete_sendsNoReply (bank : Named BankId) (index : Nat) (s : State) :
    SendsNoReply s (doEntryDelete bank index s).1 :=
  onEntry_sendsNoReply fun _ => .ite (.of_link rfl) (.refl s)

theorem doBankSwap_sendsNoReply (expected : AnyOr Nat) (s : State) : SendsNoReply s (doBankSwap expected s).1 := by
  have hswap : SendsNoReply s (swapBanks s).1 := .of_link rfl
  cases expected with
  | any => exact hswap
  | is n => exact .ite (.refl s) (.ite (.refl s) hswap)

theorem doGroupDefine_sendsNoReply (g : Nat) (f : GroupFields) (s : State) :
    SendsNoReply s (doGroupDefine g f s).1 := by
  unfold doGroupDefine
  split
  next => exact .refl s
  next record _ =>
    refine .ite (.refl s) (.ite (.refl s) ?_)
    unfold defineGroup
    cases groupAt s g with
    | none => exact .of_link rfl
    | some old => exact .of_notices ((reportLevel_gains g old.meas.adopted 0 _).since rfl)

theorem doGroupService_sendsNoReply (g : Nat) (service : Named ServiceState) (s : State) :
    SendsNoReply s (doGroupService g service s).1 := by
  cases service with
  | none => exact .refl s
  | some v =>
    refine .ite ?_ (.refl s)
    cases groupAt s g with
    | none => exact .refl s
    | some gr => exact .ite (.refl s) (.of_link rfl)

theorem doGroupRead_sendsNoReply (g : Nat) (range : Option (Nat × Nat)) (s : State) :
    SendsNoReply s (doGroupRead g range s).1 := by
  refine .ite ?_ (.refl s)
  cases groupAt s g with
  | none => exact .refl s
  | some gr => exact .ite (.refl s) (.refl s)

theorem onCircuit_sendsNoReply (g k : Nat) (act : Nat → Circuit → CircuitGroup → CircuitGroup) (s : State) :
    SendsNoReply s (onCircuit g k act s).1 := by
  refine .ite ?_ (.refl s)
  cases groupAt s g with
  | none => exact .refl s
  | some gr =>
    dsimp only
    cases gr.circuits[k]? with
    | none => exact .refl s
    | some q => exact .of_link rfl

theorem doReadGroupCounters_sendsNoReply (g : Nat) (s : State) : SendsNoReply s (doReadGroupCounters g s).1 := by
  refine .ite ?_ (.refl s)
  cases groupAt s g with
  | none => exact .refl s
  | some gr => exact .of_notices ((recheck_gains _ _).since rfl)

theorem doRouteListWrite_sendsNoReply (list : Nat) (policy : Named Policy) (ceiling : BitVec 16)
    (choices : List Nat) (s : State) : SendsNoReply s (doRouteListWrite list policy ceiling choices s).1 := by
  cases policy with
  | none => exact .refl s
  | some p => exact .ite (.of_link rfl) (.refl s)

theorem doRouteListRead_sendsNoReply (list : Nat) (s : State) : SendsNoReply s (doRouteListRead list s).1 := by
  refine .ite ?_ (.refl s)
  cases Table.find s.sel.routeLists list with
  | none => exact .refl s
  | some rl => exact .refl s

theorem doGapAdd_sendsNoReply (digits : List Nat) (interval : Nat) (lifetime : Lifetime) (s : State) :
    SendsNoReply s (doGapAdd digits interval lifetime s).1 := by
  refine .ite ?_ (.refl s)
  dsimp only
  cases gapOfDigits s digits with
  | some held => exact .of_link rfl
  | none =>
    cases freeGapSlot s with
    | none => exact .refl s
    | some slot => exact .of_link rfl

theorem doGapRemove_sendsNoReply (digits : List Nat) (s : State) : SendsNoReply s (doGapRemove digits s).1 := by
  refine .ite ?_ (.refl s)
  cases gapOfDigits s digits with
  | none => exact .refl s
  | some held => exact .of_link rfl

theorem gapsReply_sendsNoReply (l : List (Nat × GapEntry)) (s : State) : SendsNoReply s (gapsReply l s).1 :=
  .ite (.refl s) (.refl s)

theorem doGapRead_sendsNoReply (key : GapKey) (s : State) : SendsNoReply s (doGapRead key s).1 := by
  cases key with
  | byDigits digits => exact .ite (gapsReply_sendsNoReply _ s) (.refl s)
  | fromSlot slot => exact .ite (gapsReply_sendsNoReply _ s) (.refl s)

end Tables

/-! ### Requests on the time base and the rating unit (08, 09) -/

theorem doSetTime_sendsNoReply (date : Date) (tod : Nat) (s : State) : SendsNoReply s (doSetTime date tod s).1 :=
  .ite (.of_notices ((recheck_gains .timeUnset _).since rfl)) (.refl s)

theorem doHolidayWrite_sendsNoReply (mask : Keep (List (Named Weekday))) (holidays : Keep (List Date)) (s : State) :
    SendsNoReply s (doHolidayWrite mask holidays s).1 := by
  refine .ite ?_ (.refl s)
  cases adoptMask mask s.time.weekendMask with
  | none => exact .refl s
  | some m => exact .of_link rfl

theorem doBandScheduleWrite_sendsNoReply (c : Named DayClass) (l : List BandEntry) (s : State) :
    SendsNoReply s (doBandScheduleWrite c l s).1 := by
  cases c with
  | none => exact .refl s
  | some c => exact .ite (.ite (.refl s) (.of_link rfl)) (.refl s)

theorem doCarrierWrite_sendsNoReply (carrier : Nat) (f : CarrierFields) (s : State) :
    SendsNoReply s (doCarrierWrite carrier f s).1 := by
  unfold doCarrierWrite
  cases f.adopt with
  | none => exact .refl s
  | some a => exact .ite (.of_link rfl) (.refl s)

theorem doDiscardRecords_sendsNoReply (first : BitVec 32) (n : Nat) (s : State) :
    SendsNoReply s (doDiscardRecords first n s).1 := by
  refine .ite ?_ (.refl s)
  cases discardRefusal first n s with
  | some refusal => exact .refl s
  | none => exact .of_notices (Settlement.movedIn_afterDiscard n s).link

/-! ### Requests on the engine (10) -/

theorem doHold_sendsNoReply (s : State) : SendsNoReply s (doHold s).1 := by
  unfold doHold
  cases s.eng.state with
  | running => exact .of_notices (setEngine_gains _ _ s)
  | holding | held | stepping => exact .refl s

theorem selectReleased_gains (i : Nat) (c : Context) (s : State) :
    s.link.GainsOnly (fun x => !x.isReply) (selectReleased i c s).1.link := by
  have hrun := (runSelection_gains i c s).notices
  unfold selectReleased
  generalize runSelection i c s = x at hrun ⊢
  obtain ⟨t, result⟩ := x
  cases result with
  | seized g k p n => exact hrun.trans (callReport_gains i _ t)
  | failed cause => exact hrun.trans (freeContext_gains i (some cause) t)
  | queued => exact hrun

theorem drainHeld_gains (fuel : Nat) (d : Drain) (s : State) :
    s.link.GainsOnly (fun x => !x.isReply) (drainHeld fuel d s).1.link := by
  induction fuel generalizing d s with
  | zero => exact .refl _ _
  | succ fuel ih =>
    unfold drainHeld
    split
    next => exact .refl _ _
    next =>
      split
      next => exact .refl _ _
      next e _ =>
        dsimp only
        split
        next => exact (ih _ _).since rfl
        next c _ =>
          have hone := selectReleased_gains (e.ref / Config.generationCount) c (releaseHeld e s)
          split <;> rename_i hresult <;> rw [hresult] at hone
          · exact (hone.trans (ih _ _)).since rfl
          · exact (hone.trans (ih _ _)).since rfl

theorem doResume_sendsNoReply (s : State) : SendsNoReply s (doResume s).1 := by
  unfold doResume
  cases s.eng.state with
  | holding | stepping | running => exact .refl s
  | held => exact .of_gains ((setEngine_gains .running .none s).notices.trans (drainHeld_gains _ _ _))

theorem stepEntry_sendsNoReply (e : HeldEntry) (s : State) : SendsNoReply s (stepEntry e s).1 := by
  have henter : s.link.GainsOnly Message.isNotice (enterStepping e.ref (releaseHeld e s)).link :=
    (setEngine_gains .stepping _ _).since rfl
  unfold stepEntry
  dsimp only
  split
  next => exact .of_notices (henter.trans (engineCheck_gains _))
  next c _ => exact .of_gains (henter.notices.trans (selectReleased_gains _ c _))

theorem doStep_sendsNoReply (s : State) : SendsNoReply s (doStep s).1 := by
  refine .ite ?_ (.refl s)
  cases firstServed s.eng.held with
  | none => exact .refl s
  | some e => exact stepEntry_sendsNoReply e s

theorem doTrial_sendsNoReply (origin : Nat) (cls : Named NumberClass) (digits : List Nat) (prio duration : Nat)
    (s : State) : SendsNoReply s (doTrial origin cls digits prio duration s).1 := by
  refine .ite ?_ (.refl s)
  cases cls with
  | none => exact .refl s
  | some k => exact .ite (.refl s) (.refl s)

theorem doFaultAck_sendsNoReply (s : State) : SendsNoReply s (doFaultAck s).1 := by
  unfold doFaultAck
  cases s.eng.fault with
  | none => exact .refl s
  | some f => exact .of_notices ((recheck_gains _ _).since rfl)

theorem doHeldMeasurement_sendsNoReply (setting : Named Bool) (s : State) :
    SendsNoReply s (doHeldMeasurement setting s).1 := by
  cases setting with
  | none => exact .refl s
  | some v => exact .of_link rfl

/-! ### The link's own requests (11) -/

/-- CLEAR changes the link counters alone (R197). -/
theorem doStatus_sendsNoReply (clear : Named Bool) (s : State) : SendsNoReply s (doStatus clear s).1 := by
  match clear with
  | none => exact .refl s
  | some true => exact ⟨rfl, rfl, [], (List.append_nil _).symm, List.forall_mem_nil _⟩
  | some false => exact .refl s

theorem doNotices_sendsNoReply (present : Bool) (classes : List (Named NoticeClass)) (s : State) :
    SendsNoReply s (doNotices present classes s).1 := by
  unfold doNotices
  cases allNamed classes with
  | none => exact .refl s
  | some l => exact ⟨rfl, rfl, [], (List.append_nil _).symm, List.forall_mem_nil _⟩

theorem doDeviceSettings_sendsNoReply (f : SettingsFields) (s : State) :
    SendsNoReply s (doDeviceSettings f s).1 :=
  .of_notices ((recheck_gains _ _).after ((recheck_gains _ _).since rfl))

/-! ### WARM RESTART (R199) -/

section WarmRestart

variable {tag : Tag} {s : State}

theorem rateAnswered_gains (s : State) : s.link.GainsOnly Message.isNotice (rateAnswered s).link := by
  unfold rateAnswered
  generalize s.ctx.contexts = l
  induction l generalizing s with
  | nil => exact .refl _ _
  | cons e t ih =>
    have hone : s.link.GainsOnly Message.isNotice (rateAtRestart s e.2).link := by
      unfold rateAtRestart
      split
      · exact enterRecord_gains _ s
      · exact .refl _ _
    exact hone.trans (ih _)

theorem freeAll_gains (s : State) : s.link.GainsOnly Message.isNotice (freeAll s).link :=
  (recheck_gains _ _).after ((recheck_gains _ _).since rfl)

theorem warmGroups_gains (s : State) : s.link.GainsOnly Message.isNotice (warmGroups s).link :=
  (recheck_gains _ _).since rfl

theorem warmAnalysis_link (s : State) : (warmAnalysis s).link = s.link := rfl
theorem warmGaps_link (s : State) : (warmGaps s).link = s.link := rfl
theorem warmEngine_link (s : State) : (warmEngine s).link = s.link := rfl

theorem warmBlocks_gains (s : State) : s.link.GainsOnly Message.isNotice (warmBlocks s).link := by
  have hfreed := (rateAnswered_gains s).trans (freeAll_gains _)
  have hgroups := hfreed.trans ((warmGroups_gains _).since (warmAnalysis_link _))
  rw [warmBlocks, warmEngine_link]
  exact hgroups.trans ((recheck_gains .settlementBacklog _).since (warmGaps_link _))

theorem isReply_of_notice {m : Message} (h : m.isNotice = true) : m.isReply = false := by
  cases m with
  | notice => rfl
  | reply | report | restarted => cases h

/-- A reply in the first of two places, notices, then a message in the second: the reply is the only one. -/
theorem sendReserved_oneReply {r : Reply} {u : State} {m : Message} (hreserved : s.link.reserved = 0)
    (h : (sendReply tag r (takenFor 2 s)).link.GainsOnly Message.isNotice u.link) (hm : m.isReply = false) :
    OneReply tag s (sendReserved m u) := by
  obtain ⟨ms, hms, hnotice⟩ := h.queue
  refine ⟨h.inBuf, ?_, [], r, ms ++ [m], ?_, fun x (hx : x ∈ ms ++ [m]) => ?_⟩
  · rw [sendReserved_reserved, h.reserved, sendReply_reserved, takenFor_reserved, hreserved]
  · rw [sendReserved_outQueue, hms, sendReply_outQueue, takenFor_outQueue]
    simp
  · rcases List.mem_append.1 hx with hx | hx
    · exact isReply_of_notice (hnotice x hx)
    · exact List.mem_singleton.1 hx ▸ hm

/-- DONE is the one reply; the blocks' notices and RESTARTED stand behind it. -/
theorem warmRestart_oneReply (hreserved : s.link.reserved = 0) : OneReply tag s (warmRestart tag (takenFor 2 s)) :=
  sendReserved_oneReply hreserved (warmBlocks_gains _) rfl

theorem takeWarmRestart_oneReply (hreserved : s.link.reserved = 0) :
    OneReply tag s (takeWarmRestart tag (takenFor 2 s)) := by
  unfold takeWarmRestart
  split
  next =>
    refine oneReply_of_queue (r := .refuse .backlog .none) rfl ?_ rfl
    rw [releasePlace_reserved, sendReply_reserved, takenFor_reserved, hreserved]
  next => exact warmRestart_oneReply hreserved

end WarmRestart

/-! ### Every request by its fields -/

/-- A command is the request of a kind and tag: its frame is taken or waits, and, where it passes the tag test, `act` is
done with it, which answers it once. COLD RESTART, whose reply leaves at once, is only taken so. -/
structure IsServed (c : Instr) (kind : Byte) (tag : Tag) (act : State → State) : Prop where
  exec_eq : ∀ s, exec c s =
    .next (serveFrame (isRequest kind tag) (requestFrame c kind tag) (tagFault tag) act s)
  oneReply : isCold c = false → ∀ s, s.link.reserved = 0 → OneReply tag s (act (takenFor (placesNeeded kind) s))

section Served

variable {c : Instr} {kind : Byte} {tag : Tag} {s : State}

/-- A request whose block sends no reply of its own is served. -/
theorem isServed_of_block {act : State → State × Reply} {kind' : Byte} {tag' : Tag}
    (hreq : some (kind', tag') = some (kind, tag)) (hk : kind' ≠ 84)
    (hexec : ∀ s, exec c s = request c kind' tag' act s) (hact : ∀ s, SendsNoReply s (act s).1) :
    ∃ act, IsServed c kind tag act := by
  cases hreq
  refine ⟨fun t => sendReply tag (act t).2 (act t).1, hexec, fun _ s hreserved => ?_⟩
  rw [placesNeeded, if_neg hk]
  exact (hact (takenFor 1 s)).oneReply hreserved tag _

theorem exists_isServed (h : requestOf c = some (kind, tag)) : ∃ act, IsServed c kind tag act := by
  cases c with
  | proceed tag ref g k => exact isServed_of_block h (by decide) (fun _ => rfl) (doProceed_sendsNoReply ref g k)
  | answer tag ref => exact isServed_of_block h (by decide) (fun _ => rfl) (doAnswer_sendsNoReply ref)
  | crankback tag ref g k cause =>
    exact isServed_of_block h (by decide) (fun _ => rfl) (doCrankback_sendsNoReply ref g k cause)
  | release tag ref => exact isServed_of_block h (by decide) (fun _ => rfl) (doRelease_sendsNoReply ref)
  | readContext tag ref => exact isServed_of_block h (by decide) (fun _ => rfl) (doReadContext_sendsNoReply ref)
  | prefixWrite tag bank i f =>
    exact isServed_of_block h (by decide) (fun _ => rfl) (doEntryWrite_sendsNoReply bank i f)
  | prefixRead tag bank i mode =>
    exact isServed_of_block h (by decide) (fun _ => rfl) (doEntryRead_sendsNoReply bank i mode)
  | prefixDelete tag bank i => exact isServed_of_block h (by decide) (fun _ => rfl) (doEntryDelete_sendsNoReply bank i)
  | bankCopy tag => exact isServed_of_block h (by decide) (fun _ => rfl) (fun _ => .of_link rfl)
  | bankSwap tag expected => exact isServed_of_block h (by decide) (fun _ => rfl) (doBankSwap_sendsNoReply expected)
  | groupDefine tag g f => exact isServed_of_block h (by decide) (fun _ => rfl) (doGroupDefine_sendsNoReply g f)
  | groupService tag g v => exact isServed_of_block h (by decide) (fun _ => rfl) (doGroupService_sendsNoReply g v)
  | groupRead tag g range => exact isServed_of_block h (by decide) (fun _ => rfl) (doGroupRead_sendsNoReply g range)
  | circuitBlock tag g k =>
    exact isServed_of_block h (by decide) (fun _ => rfl) (onCircuit_sendsNoReply g k blockCircuit)
  | circuitUnblock tag g k =>
    exact isServed_of_block h (by decide) (fun _ => rfl)
      (fun s => onCircuit_sendsNoReply g k (unblockCircuit (now s)) s)
  | readGroupCounters tag g =>
    exact isServed_of_block h (by decide) (fun _ => rfl) (doReadGroupCounters_sendsNoReply g)
  | routeListWrite tag list policy ceiling choices =>
    exact isServed_of_block h (by decide) (fun _ => rfl) (doRouteListWrite_sendsNoReply list policy ceiling choices)
  | routeListRead tag list => exact isServed_of_block h (by decide) (fun _ => rfl) (doRouteListRead_sendsNoReply list)
  | gapAdd tag digits interval lifetime =>
    exact isServed_of_block h (by decide) (fun _ => rfl) (doGapAdd_sendsNoReply digits interval lifetime)
  | gapRemove tag digits => exact isServed_of_block h (by decide) (fun _ => rfl) (doGapRemove_sendsNoReply digits)
  | gapRead tag key => exact isServed_of_block h (by decide) (fun _ => rfl) (doGapRead_sendsNoReply key)
  | setTime tag date tod => exact isServed_of_block h (by decide) (fun _ => rfl) (doSetTime_sendsNoReply date tod)
  | holidayWrite tag mask holidays =>
    exact isServed_of_block h (by decide) (fun _ => rfl) (doHolidayWrite_sendsNoReply mask holidays)
  | bandScheduleWrite tag dayClass l =>
    exact isServed_of_block h (by decide) (fun _ => rfl) (doBandScheduleWrite_sendsNoReply dayClass l)
  | carrierWrite tag carrier f =>
    exact isServed_of_block h (by decide) (fun _ => rfl) (doCarrierWrite_sendsNoReply carrier f)
  | carrierRead tag carrier =>
    exact isServed_of_block h (by decide) (fun _ => rfl) (fun s => .ite (.refl s) (.refl s))
  | readRecords tag n => exact isServed_of_block h (by decide) (fun _ => rfl) (fun s => .ite (.refl s) (.refl s))
  | discardRecords tag first n =>
    exact isServed_of_block h (by decide) (fun _ => rfl) (doDiscardRecords_sendsNoReply first n)
  | hold tag => exact isServed_of_block h (by decide) (fun _ => rfl) doHold_sendsNoReply
  | forceHold tag =>
    exact isServed_of_block h (by decide) (fun _ => rfl) (fun s => .of_notices (setEngine_gains .held .forced s))
  | resume tag => exact isServed_of_block h (by decide) (fun _ => rfl) doResume_sendsNoReply
  | step tag => exact isServed_of_block h (by decide) (fun _ => rfl) doStep_sendsNoReply
  | trial tag origin cls digits prio duration =>
    exact isServed_of_block h (by decide) (fun _ => rfl) (doTrial_sendsNoReply origin cls digits prio duration)
  | faultAck tag => exact isServed_of_block h (by decide) (fun _ => rfl) doFaultAck_sendsNoReply
  | heldMeasurement tag setting =>
    exact isServed_of_block h (by decide) (fun _ => rfl) (doHeldMeasurement_sendsNoReply setting)
  | status tag clear => exact isServed_of_block h (by decide) (fun _ => rfl) (doStatus_sendsNoReply clear)
  | noticeEnable tag classes =>
    exact isServed_of_block h (by decide) (fun _ => rfl) (doNotices_sendsNoReply true classes)
  | noticeDisable tag classes =>
    exact isServed_of_block h (by decide) (fun _ => rfl) (doNotices_sendsNoReply false classes)
  | deviceSettings tag f => exact isServed_of_block h (by decide) (fun _ => rfl) (doDeviceSettings_sendsNoReply f)
  | warmRestart tag =>
    cases h
    exact ⟨takeWarmRestart tag, fun _ => rfl, fun _ _ => takeWarmRestart_oneReply⟩
  | coldRestart tag =>
    cases h
    exact ⟨coldRestart tag, fun _ => rfl, nofun⟩
  | _ => cases h

theorem exec_of_reset_of_request (h : requestOf c = some (kind, tag)) (hreset : s.link.resetLine = true) :
    exec c s = .next s := by
  obtain ⟨act, hserved⟩ := exists_isServed h
  exact (hserved.exec_eq s).trans (congrArg Host.Outcome.next (serveFrame_of_reset hreset))

theorem exec_of_not_of_request (h : requestOf c = some (kind, tag))
    (hnot : canTake (isRequest kind tag) (placesNeeded kind) s = false) :
    exec c s = .next (arrive (isRequest kind tag) (requestFrame c kind tag) s) := by
  obtain ⟨act, hserved⟩ := exists_isServed h
  exact (hserved.exec_eq s).trans (congrArg Host.Outcome.next (serveFrame_of_not hnot))

theorem exec_of_tagZero (h : requestOf c = some (kind, 0)) (hreserved : s.link.reserved = 0)
    (htake : canTake (isRequest kind 0) (placesNeeded kind) s = true) :
    exec c s = .next (rejected kind 0 .tagZero s) := by
  obtain ⟨act, hserved⟩ := exists_isServed h
  rw [hserved.exec_eq, tagFault, if_pos rfl, serveFrame_of_fault htake hreserved]
  rfl

end Served

/-! ### SETUP and REJECT, which carry their frames -/

section Framed

variable {isMine : Frame → Bool} {f : Frame} {act : State → State × Reply} {s : State}

theorem exec_reject_of_fault {reason : RejectReason} (h : frameFault f = some reason) (s : State) :
    exec (.reject f) s = .next (serve (· == f) f (some reason) (refuse .badField) s) := by
  show execReject f s = _
  rw [execReject, h]

theorem exec_reject_of_good (h : frameFault f = none) (s : State) : exec (.reject f) s = .next s := by
  show execReject f s = _
  rw [execReject, h]

theorem exec_reject_of_taken {reason : RejectReason} (hreserved : s.link.reserved = 0)
    (h : frameFault f = some reason) (htake : canTake (· == f) (placesNeeded f.kind) s = true) :
    exec (.reject f) s = .next (rejected f.kind f.tag reason s) := by
  rw [exec_reject_of_fault h, serve, serveFrame_of_fault htake hreserved]

/-- A frame of one place, whatever its test says, is answered once. -/
theorem serve_oneReply (fault : Option RejectReason) (hk : placesNeeded f.kind = 1) (hreserved : s.link.reserved = 0)
    (htake : canTake isMine (placesNeeded f.kind) s = true) (hact : ∀ s, SendsNoReply s (act s).1) :
    OneReply f.tag s (serve isMine f fault act s) := by
  cases fault with
  | some reason =>
    rw [serve, serveFrame_of_fault htake hreserved]
    exact oneReply_rejected f.kind f.tag reason hreserved
  | none =>
    rw [serve, serveFrame_of_good htake, hk]
    exact (hact (takenFor 1 s)).oneReply hreserved f.tag _

end Framed

/-! ### The statements -/

/-- Settles O3: a request by its block, or by REJECT where its tag is 0; a SETUP; a rejected frame. -/
theorem takenRequestsYieldOneReply : Obligations.TakenRequestsYieldOneReply := by
  refine ⟨fun c kind tag s t hreq hcold hreserved htake ht => ?request,
    fun tag callId group circuit numClass prio digits s t hreserved htake ht => ?setup,
    fun f reason s t hreserved hfault htake ht => ?reject⟩
  case request =>
    by_cases htag : tag = 0
    · subst htag
      rw [exec_of_tagZero hreq hreserved htake] at ht
      cases ht
      exact oneReply_rejected kind 0 .tagZero hreserved
    · obtain ⟨act, hserved⟩ := exists_isServed hreq
      have hact := hserved.oneReply hcold s hreserved
      rw [hserved.exec_eq, tagFault, if_neg htag, serveFrame_of_good htake] at ht
      exact Host.Outcome.next.inj ht ▸ hact
  case setup =>
    cases ht
    exact serve_oneReply (f := setupFrame tag callId group circuit numClass prio digits) _ rfl hreserved htake
      (doSetup_sendsNoReply callId group circuit numClass prio digits)
  case reject =>
    rw [exec_reject_of_taken hreserved hfault htake] at ht
    cases ht
    exact oneReply_rejected f.kind f.tag reason hreserved

/-- Settles O4: by the test that a frame fails, and by the tag of a request given by its fields. -/
theorem rejectedFramesReachNoBlock : Obligations.RejectedFramesReachNoBlock :=
  ⟨fun _ _ _ => exec_reject_of_taken, fun _ _ _ hreserved hreq htake => exec_of_tagZero hreq hreserved htake⟩

/-- While the RESET line is asserted a rejected frame changes nothing, whether it fails a test or not (R200). -/
theorem exec_reject_of_reset {s : State} (f : Frame) (hreset : s.link.resetLine = true) :
    exec (.reject f) s = .next s := by
  cases hfault : frameFault f with
  | none => exact exec_reject_of_good hfault s
  | some reason => rw [exec_reject_of_fault hfault, serve, serveFrame_of_reset hreset]

/-- While the RESET line is asserted the bytes and the sends change nothing, and both output lines are off (R200). -/
theorem link_idle_of_reset {s : State} (hreset : s.link.resetLine = true) :
    s.linkReady = false ∧ s.attn = false ∧ exec .messageSent s = .next s ∧
      (∀ bytes, exec (.frameReceived bytes) s = .next s) ∧ exec .syncPairFound s = .next s ∧
      ∀ n, exec (.badLength n) s = .next s := by
  have hreceive (bytes : List Byte) : receive bytes s = s := FrameReceiver.receive_of_reset bytes hreset
  refine ⟨?ready, ?attn, ?sent, fun bytes => congrArg Host.Outcome.next (hreceive bytes), ?pair, fun n => ?length⟩
  case ready => rw [State.linkReady, hreset]; rfl
  case attn => rw [State.attn, hreset]; rfl
  case sent => exact congrArg Host.Outcome.next (if_pos hreset)
  case pair =>
    show execSyncPairFound s = _
    rw [execSyncPairFound, hreceive, ite_self]
  case length =>
    show execBadLength n s = _
    rw [execBadLength, hreceive, ite_self]

/-- Settles O5: the RESET line, then each command whose frame cannot be taken, then REJECT of a good frame. -/
theorem untakenRequestsWait : Obligations.UntakenRequestsWait := by
  refine ⟨⟨fun _ => rfl, fun s hreset => ?reset⟩, fun c isMine f s hcase hline hnot => ?wait,
    fun f s hgood => exec_reject_of_good hgood s⟩
  case reset =>
    obtain ⟨hready, hattn, hsent, hbytes, hpair, hlength⟩ := link_idle_of_reset hreset
    exact ⟨hready, hattn, hsent, hbytes, hpair, hlength, fun _ _ _ hreq => exec_of_reset_of_request hreq hreset,
      fun _ _ _ _ _ _ _ => congrArg Host.Outcome.next (serveFrame_of_reset hreset),
      fun f => exec_reject_of_reset f hreset⟩
  case wait =>
    rw [← arrive_of_released hline]
    rcases hcase with ⟨kind, tag, hreq, rfl, rfl⟩ |
      ⟨tag, callId, group, circuit, numClass, prio, digits, rfl, rfl, rfl⟩ | ⟨rfl, hfault, rfl⟩
    · exact exec_of_not_of_request hreq hnot
    · exact congrArg Host.Outcome.next (serveFrame_of_not hnot)
    · obtain ⟨reason, hreason⟩ := Option.ne_none_iff_exists'.1 hfault
      rw [exec_reject_of_fault hreason, serve, serveFrame_of_not hnot]

end Sys2Proof.FrameTaking

/-! PROOF. The step: which command it runs, read off the machine's queue (00 section 2.1). -/

namespace Sys2Proof.Stepping

open Sys2Proof Sys2Proof.Machine

/-- The command at the front has already left the queue when it runs. -/
theorem step_of_pending_cons {c : Instr} {rest : List Instr} {s : State} (hqueue : s.pending = c :: rest) :
    step s = exec c { s with pending := rest } := by
  rw [step, hqueue]

/-- Settles O1: the queue of the state with `c :: rest` put in begins with `c`. -/
theorem stepRunsTheFrontCommand : Obligations.StepRunsTheFrontCommand :=
  fun _ _ _ => step_of_pending_cons rfl

end Sys2Proof.Stepping
